-- ==== Sys2Proof/Word.lean ====
section
/-! DEFINITION. The words of the MORTON3 block and the two closed name sets its commands use: axes and chunk levels
(spec/00_scope.md R12, R15; spec/10_state.md R35; spec/30_encoding.md R81, R85, R86). Bit 0 is the least significant bit. -/

namespace Sys2Proof

/-- A 64-bit word: X, Y, Z, KEY, ROMD, host data, a command word (R20, R52, R90). -/
abbrev Word := BitVec 64

/-- The 63 significant bits of a key, and a forward-table word (R80, R85). -/
abbrev KeyWord := BitVec 63

/-- A quantized integer, 21 bits (R81). -/
abbrev QInt := BitVec 21

/-- A chunk, or a ROM row address, 8 bits; a level 1 chunk is zero-extended from 5 bits (R85, R156). -/
abbrev Chunk := BitVec 8

/-- The five stored bits of STATUS (R20, R25). -/
abbrev StatusBits := BitVec 5

/-- A host register index, 4 bits (R20, R50). -/
abbrev RegIdx := BitVec 4

/-- The three axes (R15). -/
inductive Axis where
  | x
  | y
  | z
deriving DecidableEq, Repr

/-- The three chunk levels in the source's numbering, which runs against significance: level 3 is the lowest byte of a
quantized integer, level 2 the middle byte, level 1 the top five bits (R15). -/
inductive Level where
  | one
  | two
  | three
deriving DecidableEq, Repr

end Sys2Proof
end

