-- ==== Sys2Proof/Machine/State.lean ====
section
/-! DEFINITION. The host's inputs, the machine's state (spec/10_state.md R20, R35), the reasons a step can stop, and the
reset state (spec/70_reset_and_hazards.md R261). There is no program counter, mode, memory or in-flight state (R27, R28,
R30, R57); the ROM is constant and not state (R32). -/

namespace Sys2Proof.Machine

/-- A host transaction (R87): a read of a register, or a write of a 64-bit word to one. -/
inductive Transaction where
  | rd (idx : RegIdx)
  | wr (idx : RegIdx) (wdata : Word)
deriving DecidableEq, Repr

/-- What the host can do to the block: issue a transaction (R19, R217), or pulse the reset input (R260).
DESIGN CHOICE (notes/assumptions/3.md): assertion and release of reset are one input. -/
inductive HostInput where
  | transaction (t : Transaction)
  | reset
deriving DecidableEq, Repr

/-- Why a step stops with a fault. The flags RANGE, ILL and MISS of the block are no such stop: a transaction that raises
one answers a next state (R231, R240). -/
inductive Fault where
  /-- Raised by `step` alone, when the host's list has no input left: "there is no step without a transaction" (R217). Safe:
  the machine does nothing here, and the run's final state is the one before (notes/assumptions/2.md). -/
  | noTransaction
deriving DecidableEq, Repr

/-- Why a step is refused. -/
inductive Refusal where
  /-- Raised by an arm of `exec` for a command without a meaning; no arm raises it. Safe: nothing is claimed of such a
  command. -/
  | notModelled (mnemonic : String)
deriving DecidableEq, Repr

/-- The state: the 388 bits of R35, and three fields of the model's own for the host's side of a run. The host's list of
inputs is not among them: it is a parameter of the step (R19, `stepWith` in Machine/Transactions.lean). -/
structure State where
  /-- X, index 0: the pattern of one coordinate (R21). -/
  x : Word
  /-- Y, index 1 (R21). -/
  y : Word
  /-- Z, index 2 (R21). -/
  z : Word
  /-- KEY, index 3: a key in bits 62 to 0, bit 63 stored (R22). -/
  key : Word
  /-- QX, index 4 (R23). -/
  qx : QInt
  /-- QY, index 5 (R23). -/
  qy : QInt
  /-- QZ, index 6 (R23). -/
  qz : QInt
  /-- ROMD, index 7: the last table read (R24). -/
  romd : Word
  /-- STATUS, index 8: five sticky flags (R25). CMD, index 9, stores nothing (R26). -/
  status : StatusBits
  /-- How many inputs of the host's list have been taken: the place of the fold of R217 in that list. The model's own field
  (notes/assumptions/1.md). -/
  issued : Nat
  /-- One input the host offers ahead of its list, which the next step takes; none in a run from reset. The model's own
  field (notes/assumptions/4.md), which `State.withFetchWord` sets. -/
  offered : Option HostInput
  /-- The rdata values the host has received, the oldest first (R217). The model's own field (notes/assumptions/1.md). -/
  observed : List Word
deriving DecidableEq, Repr

/-- The state after reset: every stored bit zero (R34, R261); no input of the host's list taken yet, nothing
offered ahead of it, and nothing read. -/
def State.reset : State where
  x := 0#64
  y := 0#64
  z := 0#64
  key := 0#64
  qx := 0#21
  qy := 0#21
  qz := 0#21
  romd := 0#64
  status := 0#5
  issued := 0
  offered := none
  observed := []

end Sys2Proof.Machine
end

