-- ==== Sys2Proof/Config.lean ====
section
/-! DEFINITION. The parameters of the machine: the host's list of inputs (spec/00_scope.md R19, spec/43_system.md R217) and the
three latencies of spec/00_scope.md R11 and spec/70_reset_and_hazards.md R273. All are opaque: nothing in Lean knows their
values, so what is proved of the machine holds for every host and every latency. No step reads a latency.
The fixed parameters of R9 and R10 are in the types (Sys2Proof/Word.lean) and in the ROM's geometry
(Sys2Proof/Machine/Rom.lean); the ROM's contents, which R32 calls configuration with one value, are the functions there. -/

namespace Sys2Proof

/-- The host's list of transactions, with its reset inputs: "a parameter of the step relation, not state" (R19). The
machine's step is `stepWith` at this list; a claim about every host is stated of `stepWith` at every list. -/
opaque Config.hostProgram : List Machine.HostInput

/-- LAT_CMD(op): clock cycles from the CMD write of opcode `op` to its completion; finite, and independent of data and
state because it depends on `op` alone (R11, R273). -/
opaque Config.latCmd : BitVec 8 → Nat

/-- LAT_RD: clock cycles of a host read (R11). -/
opaque Config.latRd : Nat

/-- LAT_WR: clock cycles of a host write other than to CMD (R11). -/
opaque Config.latWr : Nat

end Sys2Proof
end

