-- ==== Sys2Proof/Syntax.lean ====
section
/-! DEFINITION. The ten commands of MORTON3, one constructor per row of spec/opcode_table.json (spec/30_encoding.md R92).
The host transactions RD and WR are not commands (R87) and stand in Sys2Proof/Machine/State.lean. -/

namespace Sys2Proof

/-- A command. All operands but those of LUTF and LUTI are implicit registers (R93). -/
inductive Instr where
  /-- NOP, no operation (R215). -/
  | nop
  /-- ENC, the source's `encode` (R162). -/
  | enc
  /-- DEC, the source's `decode` (R193). -/
  | dec
  /-- QNT, quantize X, Y, Z into QX, QY, QZ (R160). -/
  | qnt
  /-- ILV, interleave QX, QY, QZ into KEY (R161). -/
  | ilv
  /-- EXT, extract KEY into QX, QY, QZ (R191). -/
  | ext
  /-- DEQ, rescale QX, QY, QZ into X, Y, Z (R192). -/
  | deq
  /-- LUTF, read one forward-table word into ROMD (R130). -/
  | lutf (axis : Axis) (lvl : Level) (row : Chunk)
  /-- LUTI, look KEY[62:0] up in one inverse table (R131). -/
  | luti (axis : Axis) (lvl : Level)
  /-- CLR, clear all flags (R216). -/
  | clr
deriving DecidableEq, Repr

end Sys2Proof
end

