-- ==== Sys2Proof/WellFormed.lean ====
section
/-! DEFINITION. The one operand constraint of a command that its type does not already express (spec/30_encoding.md R94
item 4): a LUTF at level 1 names a populated row, 0 to 31. AXIS = 3 and LVL = 0 cannot be written as an `Instr`. -/

namespace Sys2Proof

/-- The command has a legal word (R94). -/
def Instr.wellFormed : Instr → Bool
  | .nop => true
  | .enc => true
  | .dec => true
  | .qnt => true
  | .ilv => true
  | .ext => true
  | .deq => true
  | .lutf _ .one row => decide (row.toNat ≤ 31)
  | .lutf _ .two _ => true
  | .lutf _ .three _ => true
  | .luti _ _ => true
  | .clr => true

end Sys2Proof
end

