-- ==== Sys2Proof/Decode.lean ====
section
/-! DEFINITION. Command word fields, the decoder, total on all 2^64 words, and the encoder
(spec/30_encoding.md R91 to R96, R98). A command word is moved whole, so there is no byte order (spec/20_memory.md R53). -/

namespace Sys2Proof

/-- Why a word is illegal. R96 gives every illegal word the one effect ILL; the name says which item of R94 failed. -/
inductive IllegalWord where
  /-- RSV0 or RSV1 is not zero (R94 item 1). -/
  | reservedBits
  /-- OP is 0x0A to 0xFF (R94 item 2). -/
  | unassignedOp
  /-- AXIS, LVL or ROW does not fit the command (R94 items 3 to 5). -/
  | operandField
deriving DecidableEq, Repr

/-- OP, bits 7 to 0 (R91). -/
def opField (w : Word) : BitVec 8 := w.extractLsb' 0 8

/-- AXIS, bits 9 to 8 (R91). -/
def axisField (w : Word) : BitVec 2 := w.extractLsb' 8 2

/-- LVL, bits 11 to 10 (R91). -/
def lvlField (w : Word) : BitVec 2 := w.extractLsb' 10 2

/-- RSV0, bits 15 to 12 (R91). -/
def rsv0Field (w : Word) : BitVec 4 := w.extractLsb' 12 4

/-- ROW, bits 23 to 16 (R91). -/
def rowField (w : Word) : BitVec 8 := w.extractLsb' 16 8

/-- RSV1, bits 63 to 24 (R91). -/
def rsv1Field (w : Word) : BitVec 40 := w.extractLsb' 24 40

/-- The axis of an AXIS field; 3 is illegal (R93). -/
def axisOfField (f : BitVec 2) : Option Axis :=
  if f = 0#2 then some .x else if f = 1#2 then some .y else if f = 2#2 then some .z else none

/-- The level of a LVL field; 0 is illegal (R93). -/
def levelOfField (f : BitVec 2) : Option Level :=
  if f = 1#2 then some .one else if f = 2#2 then some .two else if f = 3#2 then some .three else none

/-- The AXIS field of an axis (R15, R93). -/
def axisBits : Axis → BitVec 2
  | .x => 0#2
  | .y => 1#2
  | .z => 2#2

/-- The LVL field of a level (R93). -/
def levelBits : Level → BitVec 2
  | .one => 1#2
  | .two => 2#2
  | .three => 3#2

/-- A command without operands: AXIS, LVL and ROW must be zero (R94 item 3). -/
def decodePlain (w : Word) (i : Instr) : Except IllegalWord Instr :=
  if axisField w = 0#2 ∧ lvlField w = 0#2 ∧ rowField w = 0#8 then .ok i else .error .operandField

/-- LUTF: AXIS at most 2, LVL at least 1, and at level 1 a row of at most 31 (R94 item 4). -/
def decodeLutf (w : Word) : Except IllegalWord Instr :=
  match axisOfField (axisField w), levelOfField (lvlField w) with
  | some a, some l =>
    if l = .one ∧ 31 < (rowField w).toNat then .error .operandField else .ok (.lutf a l (rowField w))
  | _, _ => .error .operandField

/-- LUTI: AXIS at most 2, LVL at least 1, ROW zero (R94 item 5). -/
def decodeLuti (w : Word) : Except IllegalWord Instr :=
  match axisOfField (axisField w), levelOfField (lvlField w) with
  | some a, some l => if rowField w = 0#8 then .ok (.luti a l) else .error .operandField
  | _, _ => .error .operandField

/-- The opcode map (R92). -/
def decodeOp (w : Word) : Except IllegalWord Instr :=
  match (opField w).toNat with
  | 0x00 => decodePlain w .nop
  | 0x01 => decodePlain w .enc
  | 0x02 => decodePlain w .dec
  | 0x03 => decodePlain w .qnt
  | 0x04 => decodePlain w .ilv
  | 0x05 => decodePlain w .ext
  | 0x06 => decodePlain w .deq
  | 0x07 => decodeLutf w
  | 0x08 => decodeLuti w
  | 0x09 => decodePlain w .clr
  | _ => .error .unassignedOp

/-- `decode_cmd` of R95. -/
def decode (w : Word) : Except IllegalWord Instr :=
  if rsv0Field w ≠ 0#4 ∨ rsv1Field w ≠ 0#40 then .error .reservedBits else decodeOp w

/-- A command word laid out by R91 with both reserved fields zero. -/
def commandWord (op : BitVec 8) (axis lvl : BitVec 2) (row : BitVec 8) : Word :=
  0#40 ++ row ++ 0#4 ++ lvl ++ axis ++ op

/-- The command word of a well-formed command (R92, R94, R98). -/
def encode : Instr → Word
  | .nop => commandWord 0x00#8 0#2 0#2 0#8
  | .enc => commandWord 0x01#8 0#2 0#2 0#8
  | .dec => commandWord 0x02#8 0#2 0#2 0#8
  | .qnt => commandWord 0x03#8 0#2 0#2 0#8
  | .ilv => commandWord 0x04#8 0#2 0#2 0#8
  | .ext => commandWord 0x05#8 0#2 0#2 0#8
  | .deq => commandWord 0x06#8 0#2 0#2 0#8
  | .lutf a l row => commandWord 0x07#8 (axisBits a) (levelBits l) row
  | .luti a l => commandWord 0x08#8 (axisBits a) (levelBits l) 0#8
  | .clr => commandWord 0x09#8 0#2 0#2 0#8

/-- The command read from an instruction given as `nbits` bits, every bit above them zero; `none` where the decoder
refuses. -/
def decodeTableWord (nbits w : Nat) : Option Instr :=
  match decode (BitVec.ofNat 64 (w % 2 ^ nbits)) with
  | .ok i => some i
  | .error _ => none

end Sys2Proof
end

