-- ==== Sys2Proof/Machine/Coordinate.lean ====
section
/-! DEFINITION. Coordinates as binary64 patterns, the quantizer QUANT and the rescaler DEQUANT, by exact integer arithmetic
(spec/30_encoding.md R83, R84; spec/41_encoder.md R151 to R154; spec/42_decoder.md R186, R187; spec/43_system.md R219). -/

namespace Sys2Proof.Machine

/-- s, bit 63 (R83). -/
def signBit (b : Word) : Bool := b.getLsbD 63

/-- e, bits 62 to 52 (R83). -/
def expField (b : Word) : Nat := (b.extractLsb' 52 11).toNat

/-- f, bits 51 to 0 (R83). -/
def fracField (b : Word) : Nat := (b.extractLsb' 0 52).toNat

/-- m: the significand, 53 bits (R154). -/
def significand (b : Word) : Nat := if expField b = 0 then fracField b else 1 <<< 52 + fracField b

/-- ex: the exponent with which a finite pattern's magnitude is m × 2^(ex - 1075) (R84, R154). -/
def effExp (b : Word) : Nat := if expField b = 0 then 1 else expField b

/-- The real number a pattern stands for; none for an infinity or a NaN (R84). -/
def coordValue (b : Word) : Option Rat :=
  if expField b = 2047 then none
  else some ((if signBit b then -1 else 1) * (significand b : Rat) * (2 : Rat) ^ ((effExp b : Int) - 1075))

/-- valid(b): the pattern's value is a real number in [-1.0, 1.0] (R152). -/
def validCoord (b : Word) : Bool := decide (expField b ≤ 1022) || (decide (expField b = 1023) && decide (fracField b = 0))

/-- sh = 1054 - ex (R154); between 31 and 1053 for a valid pattern. -/
def quantShift (b : Word) : Nat := 1054 - effExp b

/-- num: 2^sh times (2^21 v + 2^21 + 1), a natural for a valid pattern (R154). -/
def quantNumerator (b : Word) : Nat :=
  if signBit b then (2 ^ 21 + 1) <<< quantShift b - significand b else (2 ^ 21 + 1) <<< quantShift b + significand b

/-- QRAW(b) = floor(2^20 v + 2^20 + 1/2) for a valid pattern, in the integer form num div 2^(sh + 1) (R151, R154);
the division is the right shift R219 says it is. -/
def quantRaw (b : Word) : Nat := quantNumerator b >>> (quantShift b + 1)

/-- sat: the coordinate quantized to 2^21 (R153). -/
def quantSat (b : Word) : Bool := decide (quantRaw b = 2 ^ 21)

/-- q = min(QRAW(b), 2^21 - 1), the clamp (R153). -/
def quantize (b : Word) : QInt := BitVec.ofNat 21 (min (quantRaw b) (2 ^ 21 - 1))

/-- m = |q - 2^20| (R187). -/
def dequantMagnitude (q : QInt) : Nat := if q.toNat < 2 ^ 20 then 2 ^ 20 - q.toNat else q.toNat - 2 ^ 20

/-- p: the position of the highest one bit of m (R187). -/
def dequantTop (q : QInt) : Nat := (dequantMagnitude q).log2

/-- DEQUANT(q): the pattern of (q - 2^20) / 2^20, with +0.0 for q = 2^20 (R186, R187). -/
def dequant (q : QInt) : Word :=
  if q.toNat = 2 ^ 20 then 0#64
  else
    BitVec.ofBool (decide (q.toNat < 2 ^ 20)) ++ BitVec.ofNat 11 (1023 + dequantTop q - 20) ++
      BitVec.ofNat 52 ((dequantMagnitude q - 2 ^ dequantTop q) <<< (52 - dequantTop q))

end Sys2Proof.Machine
end

