-- ==== Sys2Proof/Machine/Flags.lean ====
section
/-! DEFINITION. The five flags of STATUS and the arithmetic of raising them (spec/10_state.md R25; spec/30_encoding.md R86;
spec/60_exceptions.md R231 to R234). The conditions that raise them stand with the operations that test them:
`coordsValid` and `anySat` (Machine/Encoder.lean), `key63` (Machine/Operands.lean), `decode` (Decode.lean),
`romInverse` (Machine/Rom.lean). -/

namespace Sys2Proof.Machine

/-- The flags, in the order of their STATUS bits (R233). -/
inductive Flag where
  /-- Fault: QNT or ENC found an invalid coordinate (R152). -/
  | range
  /-- Fault: an illegal command word or an illegal host access (R96, R213, R214). -/
  | ill
  /-- Fault: a LUTI word is not tabulated (R131). -/
  | miss
  /-- Notice: EXT, DEC or LUTI read KEY with bit 63 set (R183). -/
  | key63
  /-- Notice: QNT or ENC clamped a coordinate (R153). -/
  | sat
deriving DecidableEq, Repr

/-- The flag's bit in STATUS, its cause code (R86, R233). -/
def flagBit : Flag → Nat
  | .range => 0
  | .ill => 1
  | .miss => 2
  | .key63 => 3
  | .sat => 4

/-- The fault class; the other two flags are notices (R231, R232). -/
def flagIsFault : Flag → Bool
  | .range => true
  | .ill => true
  | .miss => true
  | .key63 => false
  | .sat => false

/-- The STATUS word with the one flag set. -/
def flagMask (f : Flag) : StatusBits := 1#5 <<< flagBit f

/-- Raising sets the bit by OR (R234). -/
def setFlag (f : Flag) (st : StatusBits) : StatusBits := st ||| flagMask f

/-- The flag is set. -/
def hasFlag (f : Flag) (st : StatusBits) : Bool := st.getLsbD (flagBit f)

end Sys2Proof.Machine
end

