-- ==== Sys2Proof/Machine/Rom.lean ====
section
/-! DEFINITION. The lookup-table ROM: nine forward tables read by row (port A) and nine inverse tables read by content
(port B), constants of the hardware (spec/10_state.md R31 to R33; spec/20_memory.md R51, R55, R56; spec/40_lookup_tables.md
R120 to R126). Each inverse table is what R126 says it is, the forward table with its pairs swapped. -/

namespace Sys2Proof.Machine

/-- The axis offset a (R15). -/
def axisOffset : Axis → Nat
  | .x => 0
  | .y => 1
  | .z => 2

/-- base(l): the lowest key bit of the level's range (R15). -/
def levelBase : Level → Nat
  | .one => 48
  | .two => 24
  | .three => 0

/-- qsh(l): the lowest bit of the chunk inside the quantized integer (R15). -/
def chunkShift : Level → Nat
  | .one => 16
  | .two => 8
  | .three => 0

/-- cw(l): the chunk width (R15). -/
def chunkWidth : Level → Nat
  | .one => 5
  | .two => 8
  | .three => 8

/-- A row of a level's tables that holds an entry: all 256 rows at levels 3 and 2, rows 0 to 31 at level 1 (R51). -/
def populated (l : Level) (row : Chunk) : Bool := decide (row.toNat < 2 ^ chunkWidth l)

/-- The populated rows of a level's tables, in order (R51). -/
def populatedRows (l : Level) : List Chunk := (List.range (2 ^ chunkWidth l)).map (BitVec.ofNat 8)

/-- S(c): the sum over k in 0..7 of c[k] shifted left by 3k (R121). -/
def spread (c : Chunk) : BitVec 22 :=
  BitVec.ofNat 22 ((List.range 8).map fun k => (c.getLsbD k).toNat <<< (3 * k)).sum

/-- F[a][l][c] = S(c) << (base(l) + a), for a populated row c (R122). -/
def forwardWord (a : Axis) (l : Level) (c : Chunk) : KeyWord :=
  (spread c).setWidth 63 <<< (levelBase l + axisOffset a)

/-- A read of the forward ROM, port A; an unpopulated row holds nothing (R51, R55). -/
def romForward (a : Axis) (l : Level) (row : Chunk) : Option KeyWord :=
  if populated l row then some (forwardWord a l row) else none

/-- A lookup in the inverse ROM, port B: the populated row whose forward word is w, or a miss (R56, R126). -/
def romInverse (a : Axis) (l : Level) (w : KeyWord) : Option Chunk :=
  (populatedRows l).find? fun c => forwardWord a l c == w

/-- MASK[a][l] = F[a][l][2^cw(l) - 1] (R124). -/
def keyMask (a : Axis) (l : Level) : KeyWord := forwardWord a l (BitVec.ofNat 8 (2 ^ chunkWidth l - 1))

end Sys2Proof.Machine
end

