-- ==== Sys2Proof/Machine/Operands.lean ====
section
/-! DEFINITION. The operand forms of the commands: the chunks of a quantized integer, the fragments of a key, the key in
KEY, the Q register of an axis (spec/41_encoder.md R156, R157; spec/42_decoder.md R181, R183; spec/43_system.md R221). -/

namespace Sys2Proof.Machine

/-- The chunk of a quantized integer at a level, as a row address (R156). -/
def chunkOf (l : Level) (q : QInt) : Chunk :=
  match l with
  | .three => q.extractLsb' 0 8
  | .two => q.extractLsb' 8 8
  | .one => (q.extractLsb' 16 5).setWidth 8

/-- The three forward words of one axis, ORed (R157). Every row read is populated, since a level 1 chunk has 5 bits (R156). -/
def axisContribution (a : Axis) (q : QInt) : KeyWord :=
  forwardWord a .three (chunkOf .three q) ||| forwardWord a .two (chunkOf .two q) ||| forwardWord a .one (chunkOf .one q)

/-- INTERLEAVE: the OR of the nine contributions (R157). -/
def interleave (qx qy qz : QInt) : KeyWord :=
  axisContribution .x qx ||| axisContribution .y qy ||| axisContribution .z qz

/-- The chunk the inverse table gives for the key's fragment. The lookup of a masked fragment never misses (R128), so the
default is never the answer. -/
def fragmentChunk (a : Axis) (l : Level) (k : KeyWord) : Chunk := (romInverse a l (k &&& keyMask a l)).getD 0#8

/-- One axis of EXTRACT: c3 | (c2 << 8) | (c1[4:0] << 16) (R181). -/
def extractAxis (a : Axis) (k : KeyWord) : QInt :=
  (fragmentChunk a .three k).setWidth 21 ||| (fragmentChunk a .two k).setWidth 21 <<< 8 |||
    ((fragmentChunk a .one k).extractLsb' 0 5).setWidth 21 <<< 16

/-- KEY[62:0], the key a command reads (R22, R183). -/
def keyOperand (s : State) : KeyWord := s.key.extractLsb' 0 63

/-- KEY[63], the condition of the notice KEY63 (R183). -/
def key63 (s : State) : Bool := s.key.getLsbD 63

/-- The Q register of an axis (R20, R221). -/
def qReg (a : Axis) (s : State) : QInt :=
  match a with
  | .x => s.qx
  | .y => s.qy
  | .z => s.qz

/-- The coordinate register of an axis (R20, R21). -/
def coordReg (a : Axis) (s : State) : Word :=
  match a with
  | .x => s.x
  | .y => s.y
  | .z => s.z

end Sys2Proof.Machine
end

