-- ==== Sys2Proof/Machine/Ops.lean ====
section
/-! DEFINITION. The operations the commands and the host transactions share: the register file by index, register writes,
raising a flag, taking a fault (the block's whole exception entry) and the return from it (spec/10_state.md R20, R23;
spec/20_memory.md R52, R59; spec/60_exceptions.md R231, R232, R240, R241). -/

namespace Sys2Proof.Machine

/-- The names of the mapped registers (R20). -/
inductive RegName where
  | x
  | y
  | z
  | key
  | qx
  | qy
  | qz
  | romd
  | status
  | cmd
deriving DecidableEq, Repr

/-- The register index map; indices 10 to 15 are unmapped (R20, R59). -/
def regAt (idx : RegIdx) : Option RegName :=
  match idx.toNat with
  | 0 => some .x
  | 1 => some .y
  | 2 => some .z
  | 3 => some .key
  | 4 => some .qx
  | 5 => some .qy
  | 6 => some .qz
  | 7 => some .romd
  | 8 => some .status
  | 9 => some .cmd
  | _ => none

/-- What a read of a mapped register returns: the narrow registers zero-extended, CMD zero (R52, R210). -/
def readReg (r : RegName) (s : State) : Word :=
  match r with
  | .x => s.x
  | .y => s.y
  | .z => s.z
  | .key => s.key
  | .qx => s.qx.setWidth 64
  | .qy => s.qy.setWidth 64
  | .qz => s.qz.setWidth 64
  | .romd => s.romd
  | .status => s.status.setWidth 64
  | .cmd => 0#64

/-- Raise a flag: OR its bit into STATUS (R14, R234). -/
def raise (f : Flag) (s : State) : State := { s with status := setFlag f s.status }

/-- Raise a notice when its condition holds; the command goes on (R232). -/
def noticeWhen (c : Bool) (f : Flag) (s : State) : State := if c then raise f s else s

/-- TAKE A FAULT: the flag is set and the transaction ends with no other effect; nothing is saved and no control is
transferred, since there is no program counter, handler or mode (R231, R240). -/
def takeFault (f : Flag) (s : State) : Host.Outcome State Fault Refusal := .next (raise f s)

/-- The return from a fault: clearing all five flags; there is nothing to restore (R216, R241). -/
def clearFlags (s : State) : State := { s with status := 0#5 }

/-- Write the three Q registers. -/
def writeQ (qx qy qz : QInt) (s : State) : State := { s with qx := qx, qy := qy, qz := qz }

/-- Write the three coordinate registers. -/
def writeCoords (x y z : Word) (s : State) : State := { s with x := x, y := y, z := z }

/-- Write a key to KEY, bit 63 zero (R22). -/
def writeKey (k : KeyWord) (s : State) : State := { s with key := k.setWidth 64 }

/-- Write a table read to ROMD (R24). -/
def writeRomd (v : Word) (s : State) : State := { s with romd := v }

/-- Hand rdata to the host (R87, R217). -/
def observe (v : Word) (s : State) : State := { s with observed := s.observed ++ [v] }

end Sys2Proof.Machine
end

