-- ==== Sys2Proof/Machine/Decoder.lean ====
section
/-! DEFINITION. The decoder's commands EXT, DEQ and DEC (spec/42_decoder.md R191 to R193). -/

namespace Sys2Proof.Machine

/-- Extract a key into the Q registers (R181, R191). -/
def extractRegs (k : KeyWord) (s : State) : State :=
  writeQ (extractAxis .x k) (extractAxis .y k) (extractAxis .z k) s

/-- EXT (R191). -/
def execExt (s : State) : Host.Outcome State Fault Refusal :=
  .next (extractRegs (keyOperand s) (noticeWhen (key63 s) .key63 s))

/-- DEQ (R192). -/
def execDeq (s : State) : Host.Outcome State Fault Refusal :=
  .next (writeCoords (dequant s.qx) (dequant s.qy) (dequant s.qz) s)

/-- DEC (R193). -/
def execDec (s : State) : Host.Outcome State Fault Refusal :=
  let k := keyOperand s
  .next (writeCoords (dequant (extractAxis .x k)) (dequant (extractAxis .y k)) (dequant (extractAxis .z k))
    (extractRegs k (noticeWhen (key63 s) .key63 s)))

end Sys2Proof.Machine
end

