-- ==== Sys2Proof/Machine/Encoder.lean ====
section
/-! DEFINITION. The encoder's commands QNT, ILV and ENC (spec/41_encoder.md R160 to R162). -/

namespace Sys2Proof.Machine

/-- X, Y and Z are all valid; if not, QNT and ENC raise RANGE (R152, R235 item 3). -/
def coordsValid (s : State) : Bool := validCoord s.x && validCoord s.y && validCoord s.z

/-- Some axis clamps, the condition of the notice SAT (R153, R235 item 6). -/
def anySat (s : State) : Bool := quantSat s.x || quantSat s.y || quantSat s.z

/-- Quantize X, Y and Z into the Q registers (R160). -/
def quantizeRegs (s : State) : State := writeQ (quantize s.x) (quantize s.y) (quantize s.z) s

/-- QNT (R160). -/
def execQnt (s : State) : Host.Outcome State Fault Refusal :=
  if coordsValid s then .next (noticeWhen (anySat s) .sat (quantizeRegs s)) else takeFault .range s

/-- ILV (R161). -/
def execIlv (s : State) : Host.Outcome State Fault Refusal := .next (writeKey (interleave s.qx s.qy s.qz) s)

/-- ENC (R162). -/
def execEnc (s : State) : Host.Outcome State Fault Refusal :=
  if coordsValid s then
    .next (noticeWhen (anySat s) .sat
      (writeKey (interleave (quantize s.x) (quantize s.y) (quantize s.z)) (quantizeRegs s)))
  else takeFault .range s

end Sys2Proof.Machine
end

