-- ==== Sys2Proof/Machine/System.lean ====
section
/-! DEFINITION. The housekeeping commands NOP and CLR (spec/43_system.md R215, R216). -/

namespace Sys2Proof.Machine

/-- NOP: nothing (R215). -/
def execNop (s : State) : Host.Outcome State Fault Refusal := .next s

/-- CLR: all five flags cleared (R216). -/
def execClr (s : State) : Host.Outcome State Fault Refusal := .next (clearFlags s)

end Sys2Proof.Machine
end

