-- ==== Sys2Proof/Machine/Tables.lean ====
section
/-! DEFINITION. The commands LUTF and LUTI, which read single table entries (spec/40_lookup_tables.md R130, R131). -/

namespace Sys2Proof.Machine

/-- LUTF (R130). A row that is not populated has no legal word and never comes from the decoder (R96); as a term it raises
ILL, as R233 says of a LUTF of an unpopulated row (notes/assumptions/6.md). -/
def execLutf (a : Axis) (l : Level) (row : Chunk) (s : State) : Host.Outcome State Fault Refusal :=
  match romForward a l row with
  | some w => .next (writeRomd (w.setWidth 64) s)
  | none => takeFault .ill s

/-- LUTI (R131): the whole of KEY[62:0] is looked up, not masked. The notice KEY63 is raised before the lookup and stays
raised when the lookup misses (R235 items 4 and 5, notes/assumptions/5.md). -/
def execLuti (a : Axis) (l : Level) (s : State) : Host.Outcome State Fault Refusal :=
  match romInverse a l (keyOperand s) with
  | some c => .next (writeRomd (c.setWidth 64) (noticeWhen (key63 s) .key63 s))
  | none => takeFault .miss (noticeWhen (key63 s) .key63 s)

end Sys2Proof.Machine
end

