-- ==== Sys2Proof/Machine/Dispatch.lean ====
section
/-! DEFINITION. One arm per command (spec/30_encoding.md R92). -/

namespace Sys2Proof.Machine

def exec (i : Instr) (s : State) : Host.Outcome State Fault Refusal :=
  match i with
  | .nop => Sys2Proof.Machine.execNop s
  | .enc => Sys2Proof.Machine.execEnc s
  | .dec => Sys2Proof.Machine.execDec s
  | .qnt => Sys2Proof.Machine.execQnt s
  | .ilv => Sys2Proof.Machine.execIlv s
  | .ext => Sys2Proof.Machine.execExt s
  | .deq => Sys2Proof.Machine.execDeq s
  | .lutf axis lvl row => Sys2Proof.Machine.execLutf axis lvl row s
  | .luti axis lvl => Sys2Proof.Machine.execLuti axis lvl s
  | .clr => Sys2Proof.Machine.execClr s

end Sys2Proof.Machine
end

