-- ==== Sys2Proof/Machine/Transactions.lean ====
section
/-! DEFINITION. The host transactions RD and WR, the reset input, the transaction word, the script's command and macro
expansions, and the latency parameters of a transaction (spec/30_encoding.md R87, R98; spec/43_system.md R210 to R214, R218;
spec/70_reset_and_hazards.md R260, R273). -/

namespace Sys2Proof.Machine

/-- RD: rdata of a mapped register with no other effect; an unmapped index returns 0 and raises ILL (R210, R214). -/
def hostRead (idx : RegIdx) (s : State) : Host.Outcome State Fault Refusal :=
  match regAt idx with
  | some r => .next (observe (readReg r s) s)
  | none => takeFault .ill (observe 0#64 s)

/-- A write to CMD: the decoded command at once and to completion, or ILL for an illegal word (R26, R90, R95, R96). -/
def runCommand (w : Word) (s : State) : Host.Outcome State Fault Refusal :=
  match decode w with
  | .ok i => exec i s
  | .error _ => takeFault .ill s

/-- WR (R211): data registers take the word, the Q registers its low 21 bits (R212); ROMD, STATUS and an unmapped index
store nothing and raise ILL (R213, R214); CMD executes. -/
def hostWrite (idx : RegIdx) (wdata : Word) (s : State) : Host.Outcome State Fault Refusal :=
  match regAt idx with
  | some .x => .next { s with x := wdata }
  | some .y => .next { s with y := wdata }
  | some .z => .next { s with z := wdata }
  | some .key => .next { s with key := wdata }
  | some .qx => .next { s with qx := wdata.extractLsb' 0 21 }
  | some .qy => .next { s with qy := wdata.extractLsb' 0 21 }
  | some .qz => .next { s with qz := wdata.extractLsb' 0 21 }
  | some .romd => takeFault .ill s
  | some .status => takeFault .ill s
  | some .cmd => runCommand wdata s
  | none => takeFault .ill s

/-- One host transaction (R217). -/
def transact (t : Transaction) (s : State) : Host.Outcome State Fault Refusal :=
  match t with
  | .rd idx => hostRead idx s
  | .wr idx wdata => hostWrite idx wdata s

/-- The reset input: the block's registers return to the reset state; the host's own record is not the block's
(R260, R261). -/
def hostReset (s : State) : State := 
  { State.reset with issued := s.issued, offered := s.offered, observed := s.observed }

/-- The block takes one host input. -/
def accept (e : HostInput) (s : State) : Host.Outcome State Fault Refusal :=
  match e with
  | .transaction t => transact t s
  | .reset => .next (hostReset s)

/-- The next input and the state with that input taken: the one offered ahead of the list, or else the list's next one
(R19, R60, R217). -/
def nextInput (program : List HostInput) (s : State) : Option (HostInput × State) :=
  match s.offered with
  | some e => some (e, { s with offered := none })
  | none => (program[s.issued]?).map fun e => (e, { s with issued := s.issued + 1 })

/-- The step relation, with the host's list as its parameter (R19): the next input, taken whole; without one there is no step
(R217). -/
def stepWith (program : List HostInput) (s : State) : Host.Outcome State Fault Refusal :=
  match nextInput program s with
  | some (e, s') => accept e s'
  | none => .fault .noTransaction

/-- The transaction word T = we, idx, wdata; wdata is 0 for a read (R87). -/
def transactionWord (t : Transaction) : BitVec 69 :=
  match t with
  | .rd idx => 0#1 ++ idx ++ 0#64
  | .wr idx wdata => 1#1 ++ idx ++ wdata

/-- The transaction of a transaction word; wdata is ignored for a read (R87). -/
def transactionOfWord (w : BitVec 69) : Transaction :=
  if w.getLsbD 68 then .wr (w.extractLsb' 64 4) (w.extractLsb' 0 64) else .rd (w.extractLsb' 64 4)

/-- A command as a host input: the CMD write of its word (R90, R98). -/
def commandInput (i : Instr) : HostInput := .transaction (.wr 9#4 (encode i))

/-- The macro `encode hx, hy, hz` (R98, R218). -/
def encodeMacro (hx hy hz : Word) : List HostInput :=
  [.transaction (.wr 0#4 hx), .transaction (.wr 1#4 hy), .transaction (.wr 2#4 hz), commandInput .enc,
    .transaction (.rd 3#4)]

/-- The macro `decode hk` (R98, R218). -/
def decodeMacro (hk : Word) : List HostInput :=
  [.transaction (.wr 3#4 hk), commandInput .dec, .transaction (.rd 0#4), .transaction (.rd 1#4), .transaction (.rd 2#4)]

/-- Clock cycles of a transaction, from the open parameters of R11; no step reads them (R273). -/
def transactionCycles (t : Transaction) : Nat :=
  match t with
  | .rd _ => Config.latRd
  | .wr idx wdata => if idx = 9#4 then Config.latCmd (opField wdata) else Config.latWr

end Sys2Proof.Machine
end

