-- ==== Sys2Proof/Machine/Step.lean ====
section
/-! DEFINITION. One step of the machine: the host's next input, taken whole (spec/43_system.md R217; spec/20_memory.md R60). -/

namespace Sys2Proof.Machine

/-- One step of the machine: the step relation at the host's list (R19, R217). -/
def step (s : State) : Host.Outcome State Fault Refusal := stepWith Config.hostProgram s

/-- The state in which the host offers the CMD write of a command word as its next transaction: the block fetches nothing,
and a command arrives as the data of a host write (R27, R64, R90). -/
def State.withFetchWord (s : State) (nbits w : Nat) : State :=
  { s with offered := some (.transaction (.wr 9#4 (BitVec.ofNat 64 (w % 2 ^ nbits)))) }

end Sys2Proof.Machine
end

