-- ==== Sys2Proof/Safety.lean ====
section
/-! DEFINITION. The terms the claims are stated in: legal command words, exact coordinate values, what a transaction leads
to, and the facts that hold along every run. None of them is part of the step. -/

namespace Sys2Proof.Safety

open Sys2Proof.Machine

/-- The five conditions of R94, read on the raw fields of R91. -/
def LegalCommandWord (w : Word) : Prop :=
  (w.extractLsb' 24 40 = 0#40 ∧ w.extractLsb' 12 4 = 0#4) ∧
    (w.extractLsb' 0 8).toNat ≤ 0x09 ∧
    (w.extractLsb' 0 8 ≠ 0x07#8 → w.extractLsb' 0 8 ≠ 0x08#8 →
      w.extractLsb' 8 2 = 0#2 ∧ w.extractLsb' 10 2 = 0#2 ∧ w.extractLsb' 16 8 = 0#8) ∧
    (w.extractLsb' 0 8 = 0x07#8 →
      (w.extractLsb' 8 2).toNat ≤ 2 ∧ 1 ≤ (w.extractLsb' 10 2).toNat ∧
        (w.extractLsb' 10 2 = 1#2 → (w.extractLsb' 16 8).toNat ≤ 31)) ∧
    (w.extractLsb' 0 8 = 0x08#8 →
      (w.extractLsb' 8 2).toNat ≤ 2 ∧ 1 ≤ (w.extractLsb' 10 2).toNat ∧ w.extractLsb' 16 8 = 0#8)

/-- The pattern's value is a real number in [-1.0, 1.0] (R150, R152). -/
def InUnitInterval (b : Word) : Prop := ∃ v, coordValue b = some v ∧ -1 ≤ v ∧ v ≤ 1

/-- floor(2^20 v + 2^20 + 1/2) in exact rational arithmetic (R151). -/
def exactQuant (v : ℚ) : ℤ := ⌊2 ^ 20 * v + 2 ^ 20 + 1 / 2⌋

/-- The real value (q - 2^20) / 2^20 of a quantized integer (R186). -/
def gridValue (q : QInt) : ℚ := ((q.toNat : ℚ) - 2 ^ 20) / 2 ^ 20

/-- X, Y and Z all meet the encoder's precondition (R150). -/
def AllInUnitInterval (s : State) : Prop := ∀ a, InUnitInterval (coordReg a s)

/-- Some coordinate lies at or above 1 - 2^-21, where the quantizer clamps (R153). -/
def SomeClamps (s : State) : Prop := ∃ a v, coordValue (coordReg a s) = some v ∧ 1 - 1 / 2 ^ 21 ≤ v

/-- Whenever the transaction t is the host's next input, in whatever list, and s is the state with that input taken, the
step leads to u (R19, R217). -/
def After (t : Transaction) (s u : State) : Prop :=
  ∀ program r, nextInput program r = some (.transaction t, s) → stepWith program r = .next u

/-- The machine driven by a given list of host inputs: the parameter of R19 made explicit. `core` is this machine at
`Config.hostProgram`. -/
def coreWith (program : List HostInput) : Host.Core :=
  { State := State, Fault := Fault, Refusal := Refusal, step := stepWith program, reset := State.reset }

/-- The fold of R217: the inputs taken one after another, each whole. -/
def hostRun : List HostInput → State → Host.Outcome State Fault Refusal
  | [], s => .next s
  | e :: rest, s =>
    match accept e s with
    | .next t => hostRun rest t
    | .fault r => .fault r
    | .refused r => .refused r

/-- The inputs that clear flags: a CMD write of the CLR word, and reset (R25, R241). -/
def clearsFlags : HostInput → Bool
  | .reset => true
  | .transaction (.rd _) => false
  | .transaction (.wr idx wdata) => decide (idx = 9#4) && decide (wdata = 9#64)

/-- The input is a host read. -/
def isRead : HostInput → Bool
  | .reset => false
  | .transaction (.rd _) => true
  | .transaction (.wr _ _) => false

/-- No flag is set (R242). -/
def CleanStatus (s : State) : Prop := s.status = 0#5

/-- ROMD holds a table read: a forward word with bit 63 zero, or a chunk with bits 63 to 8 zero (R24). -/
def RomdIsTableRead (s : State) : Prop :=
  (∃ a l c, populated l c = true ∧ s.romd = (forwardWord a l c).setWidth 64) ∨ ∃ c : Chunk, s.romd = c.setWidth 64

/-- The registers a command reads (R20, R30). -/
def commandReads : Instr → List RegName
  | .nop => []
  | .enc => [.x, .y, .z]
  | .dec => [.key]
  | .qnt => [.x, .y, .z]
  | .ilv => [.qx, .qy, .qz]
  | .ext => [.key]
  | .deq => [.qx, .qy, .qz]
  | .lutf _ _ _ => []
  | .luti _ _ => [.key]
  | .clr => []

/-- The data registers a command may write; STATUS apart (R20). -/
def commandWrites : Instr → List RegName
  | .nop => []
  | .enc => [.qx, .qy, .qz, .key]
  | .dec => [.qx, .qy, .qz, .x, .y, .z]
  | .qnt => [.qx, .qy, .qz]
  | .ilv => [.key]
  | .ext => [.qx, .qy, .qz]
  | .deq => [.x, .y, .z]
  | .lutf _ _ _ => [.romd]
  | .luti _ _ => [.romd]
  | .clr => []

end Sys2Proof.Safety
end

