-- ==== Sys2Proof/Certificates/Slice0/Obligations.lean ====
section
/-! DEFINITION. The statements for the provers, in the order of OBLIGATIONS.json. Each docstring names the rules of spec/
the statement formalises. -/

open Sys2Proof Sys2Proof.Machine Sys2Proof.Safety

/-! Encoding. -/

/-- R92, R94, R95: decoding the word of a well-formed command gives it back, every operand at every value. -/
def Obligations.DecodeInvertsEncode : Prop :=
  ∀ i : Instr, i.wellFormed = true → decode (encode i) = .ok i

/-- R92, R94, R95: a word that decodes is the one word of its command, and the command is well-formed. -/
def Obligations.DecodedWordIsTheEncoding : Prop :=
  ∀ (w : Word) (i : Instr), decode w = .ok i → i.wellFormed = true ∧ encode i = w

/-- R94: the decoder accepts exactly the words that meet the five conditions, and there are 1649 of them. -/
def Obligations.LegalWordsAreThe1649 : Prop :=
  (∀ w : Word, (∃ i, decode w = .ok i) ↔ LegalCommandWord w) ∧
    ∃ L : List Word, L.Nodup ∧ L.length = 1649 ∧ ∀ w, w ∈ L ↔ LegalCommandWord w

/-- R92, R98 and the examples of R130, R131: words written out from the spec decode to their commands. -/
def Obligations.SpecWordsDecode : Prop :=
  decode 0x0000000000000000#64 = .ok .nop ∧ decode 0x0000000000000001#64 = .ok .enc ∧
    decode 0x0000000000000002#64 = .ok .dec ∧ decode 0x0000000000000003#64 = .ok .qnt ∧
    decode 0x0000000000000004#64 = .ok .ilv ∧ decode 0x0000000000000005#64 = .ok .ext ∧
    decode 0x0000000000000006#64 = .ok .deq ∧ decode 0x0000000000000009#64 = .ok .clr ∧
    decode 0x0000000000A50907#64 = .ok (.lutf .y .two 0xA5#8) ∧
    decode 0x0000000000A50C07#64 = .ok (.lutf .x .three 0xA5#8) ∧
    decode 0x0000000000000908#64 = .ok (.luti .y .two)

/-- R87: the transaction word is we, idx, wdata from the top; a read has wdata 0, which decoding ignores. -/
def Obligations.TransactionWordLayout : Prop :=
  (∀ t, transactionOfWord (transactionWord t) = t) ∧
    (∀ idx wdata, transactionWord (.wr idx wdata) = (1#1 ++ idx ++ wdata : BitVec 69) ∧
      (transactionWord (.wr idx wdata)).getLsbD 68 = true ∧
      (transactionWord (.wr idx wdata)).extractLsb' 64 4 = idx ∧
      (transactionWord (.wr idx wdata)).extractLsb' 0 64 = wdata) ∧
    (∀ idx, (transactionWord (.rd idx)).getLsbD 68 = false ∧
      (transactionWord (.rd idx)).extractLsb' 64 4 = idx ∧
      (transactionWord (.rd idx)).extractLsb' 0 64 = 0#64) ∧
    ∀ w : BitVec 69, w.getLsbD 68 = false → transactionOfWord w = .rd (w.extractLsb' 64 4)

/-! The step and the host transactions. -/

/-- R90, R95, R211: when the next input is a CMD write of a word that decodes, the step runs the command, for every list of the
host's and so for the machine's own step; so does the word offered by `withFetchWord`. -/
def Obligations.StepRunsDecodedCommand : Prop :=
  ∀ (s : State) (w : Word) (i : Instr), decode w = .ok i →
    (∀ program r, nextInput program r = some (.transaction (.wr 9#4 w), s) → stepWith program r = exec i s) ∧
      (∀ r, nextInput Config.hostProgram r = some (.transaction (.wr 9#4 w), s) → step r = exec i s) ∧
      step (s.withFetchWord 64 w.toNat) = exec i { s with offered := none }

/-- R96: an illegal word raises ILL and changes nothing else, whatever the registers hold. -/
def Obligations.IllegalWordRaisesOnlyIll : Prop :=
  ∀ (s : State) (w : Word), ¬ LegalCommandWord w → After (.wr 9#4 w) s { s with status := s.status ||| 0x02#5 }

/-- R210: what a read of each index returns, and the one read with an effect. -/
def Obligations.HostReadReturnsTheRegister : Prop :=
  ∀ s : State,
    After (.rd 0#4) s { s with observed := s.observed ++ [s.x] } ∧
    After (.rd 1#4) s { s with observed := s.observed ++ [s.y] } ∧
    After (.rd 2#4) s { s with observed := s.observed ++ [s.z] } ∧
    After (.rd 3#4) s { s with observed := s.observed ++ [s.key] } ∧
    After (.rd 4#4) s { s with observed := s.observed ++ [s.qx.zeroExtend 64] } ∧
    After (.rd 5#4) s { s with observed := s.observed ++ [s.qy.zeroExtend 64] } ∧
    After (.rd 6#4) s { s with observed := s.observed ++ [s.qz.zeroExtend 64] } ∧
    After (.rd 7#4) s { s with observed := s.observed ++ [s.romd] } ∧
    After (.rd 8#4) s { s with observed := s.observed ++ [s.status.zeroExtend 64] } ∧
    After (.rd 9#4) s { s with observed := s.observed ++ [0#64] } ∧
    ∀ idx : RegIdx, 10 ≤ idx.toNat →
      After (.rd idx) s { s with observed := s.observed ++ [0#64], status := s.status ||| 0x02#5 }

/-- R211, R212: a write to a data register stores the word, to a Q register its low 21 bits, and changes nothing else. -/
def Obligations.HostWriteStoresTheWord : Prop :=
  ∀ (s : State) (w : Word),
    After (.wr 0#4 w) s { s with x := w } ∧
    After (.wr 1#4 w) s { s with y := w } ∧
    After (.wr 2#4 w) s { s with z := w } ∧
    After (.wr 3#4 w) s { s with key := w } ∧
    After (.wr 4#4 w) s { s with qx := BitVec.ofNat 21 (w.toNat % 2 ^ 21) } ∧
    After (.wr 5#4 w) s { s with qy := BitVec.ofNat 21 (w.toNat % 2 ^ 21) } ∧
    After (.wr 6#4 w) s { s with qz := BitVec.ofNat 21 (w.toNat % 2 ^ 21) }

/-- R213, R214: a write to ROMD, STATUS or an unmapped index stores nothing and raises ILL. -/
def Obligations.IllegalWriteRaisesOnlyIll : Prop :=
  ∀ (s : State) (w : Word),
    After (.wr 7#4 w) s { s with status := s.status ||| 0x02#5 } ∧
    After (.wr 8#4 w) s { s with status := s.status ||| 0x02#5 } ∧
    ∀ idx : RegIdx, 10 ≤ idx.toNat → After (.wr idx w) s { s with status := s.status ||| 0x02#5 }

/-- R217, R60: whatever the host's list, every input is one whole step with exactly one outcome, a next state; a read, and only
a read, hands the host one word; the input is taken once, in order. -/
def Obligations.EveryInputIsOneStep : Prop :=
  ∀ (program : List HostInput) (r s : State) (e : HostInput), nextInput program r = some (e, s) →
    ((r.offered = some e ∧ s = { r with offered := none }) ∨
      (r.offered = none ∧ program[r.issued]? = some e ∧ s = { r with issued := r.issued + 1 })) ∧
    ∃ t, stepWith program r = .next t ∧ t.issued = s.issued ∧ t.offered = none ∧
      (isRead e = true → ∃ v, t.observed = s.observed ++ [v]) ∧ (isRead e = false → t.observed = s.observed)

/-- R19, R217: the host's list is a parameter of the step. For every list, the run from reset over its first n inputs is the
fold of the block's step over them, and it ends after the last; the machine is the one whose parameter is
`Config.hostProgram`. The count of inputs taken is the model's own (notes/assumptions/1.md). -/
def Obligations.RunFromResetFoldsTheHostsList : Prop :=
  (∀ (program : List HostInput) (n : Nat),
    (n ≤ program.length → ∃ t, hostRun (program.take n) State.reset = .next t ∧
      (coreWith program).run n State.reset = .next { t with issued := n }) ∧
    (program.length < n → (coreWith program).run n State.reset = .fault .noTransaction)) ∧
  core = coreWith Config.hostProgram

/-- R19, R32: the block never acts on its own and the list is not state: two lists that agree on the input at the state's place
give the same step. -/
def Obligations.StepSeesOnlyTheNextInput : Prop :=
  ∀ (p p' : List HostInput) (s : State), p[s.issued]? = p'[s.issued]? → stepWith p s = stepWith p' s

/-- R217's "there is no step without a transaction": a step happens exactly when the host offers an input or its list has one
left. That the model stops there by a fault is its choice (notes/assumptions/2.md). -/
def Obligations.NoInputNoStep : Prop :=
  ∀ (program : List HostInput) (s : State),
    (∃ t, stepWith program s = .next t) ↔ s.offered ≠ none ∨ s.issued < program.length

/-! Reset. -/

/-- R34, R261: every stored bit is zero after reset, and every mapped register, CMD among them, reads as zero. -/
def Obligations.ResetStateIsAllZero : Prop :=
  State.reset.x = 0#64 ∧ State.reset.y = 0#64 ∧ State.reset.z = 0#64 ∧ State.reset.key = 0#64 ∧
    State.reset.qx = 0#21 ∧ State.reset.qy = 0#21 ∧ State.reset.qz = 0#21 ∧ State.reset.romd = 0#64 ∧
    State.reset.status = 0#5 ∧ ∀ r, readReg r State.reset = 0#64

/-- R260, with the model's choice of notes/assumptions/3.md that reset is one host input: from any state it leads to the
reset state; the host's own record stays. -/
def Obligations.ResetInputRestoresResetState : Prop :=
  ∀ (program : List HostInput) (r s : State), nextInput program r = some (.reset, s) → stepWith program r =
    .next { State.reset with issued := s.issued, offered := s.offered, observed := s.observed }

/-! The lookup tables. -/

/-- R121: the spreading function, its values, and that it is additive over disjoint bits. -/
def Obligations.SpreadInsertsTwoZeroBits : Prop :=
  (∀ (c : Chunk) (j : Nat), (spread c).getLsbD j = (decide (j % 3 = 0) && c.getLsbD (j / 3))) ∧
    (∀ c d : Chunk, spread (c ||| d) = spread c ||| spread d ∧ spread c &&& spread d = spread (c &&& d)) ∧
    spread 0x00#8 = 0x000000#22 ∧ spread 0x01#8 = 0x000001#22 ∧ spread 0x02#8 = 0x000008#22 ∧
    spread 0x80#8 = 0x200000#22 ∧ spread 0xFF#8 = 0x249249#22 ∧ spread 0x1F#8 = 0x001249#22

/-- R122, R123, R55: a populated row's word has bit k of the row at bit base(l) + 3k + a and no other bit, and the shift
loses nothing; an unpopulated row (R51) holds nothing. -/
def Obligations.ForwardWordBits : Prop :=
  (axisOffset .x = 0 ∧ axisOffset .y = 1 ∧ axisOffset .z = 2) ∧
    (levelBase .three = 0 ∧ levelBase .two = 24 ∧ levelBase .one = 48) ∧
    (∀ row : Chunk, populated .three row = true ∧ populated .two row = true ∧
      (populated .one row = true ↔ row.toNat ≤ 31)) ∧
    ∀ (a : Axis) (l : Level) (c : Chunk),
      (populated l c = false → romForward a l c = none) ∧
      (populated l c = true → ∃ w, romForward a l c = some w ∧
        w.toNat = (spread c).toNat * 2 ^ (levelBase l + axisOffset a) ∧
        ∀ j, w.getLsbD j = true ↔ ∃ k, k < 8 ∧ c.getLsbD k = true ∧ j = levelBase l + 3 * k + axisOffset a)

/-- R124, R125: the nine masks, pairwise disjoint, covering all 63 key bits. -/
def Obligations.MasksPartitionTheKey : Prop :=
  (keyMask .x .three = 0x0000000000249249#63 ∧ keyMask .y .three = 0x0000000000492492#63 ∧
    keyMask .z .three = 0x0000000000924924#63 ∧ keyMask .x .two = 0x0000249249000000#63 ∧
    keyMask .y .two = 0x0000492492000000#63 ∧ keyMask .z .two = 0x0000924924000000#63 ∧
    keyMask .x .one = 0x1249000000000000#63 ∧ keyMask .y .one = 0x2492000000000000#63 ∧
    keyMask .z .one = 0x4924000000000000#63) ∧
  (∀ a l a' l', (a, l) ≠ (a', l') → keyMask a l &&& keyMask a' l' = 0#63) ∧
  (∀ j, j < 63 → ∃ a l, (keyMask a l).getLsbD j = true ∧
    ∀ a' l', (keyMask a' l').getLsbD j = true → a' = a ∧ l' = l)

/-- R126, R56: a lookup hits a row exactly when the row is populated and its forward word is the word looked up, and misses
when there is no such row. -/
def Obligations.InverseTableSwapsForwardPairs : Prop :=
  ∀ (a : Axis) (l : Level) (w : KeyWord),
    (∀ c, romInverse a l w = some c ↔ populated l c = true ∧ forwardWord a l c = w) ∧
      (romInverse a l w = none ↔ ∀ c, populated l c = true → forwardWord a l c ≠ w)

/-- R127: forward tables are injective on populated rows, and an inverse table's domain is the words with no bit outside
the mask, each the image of the row whose bit k is bit base(l) + 3k + a of the word. -/
def Obligations.InverseDomainIsTheMask : Prop :=
  ∀ (a : Axis) (l : Level),
    (∀ c d, populated l c = true → populated l d = true → forwardWord a l c = forwardWord a l d → c = d) ∧
    (∀ w, (∃ c, romInverse a l w = some c) ↔ w &&& ~~~ keyMask a l = 0#63) ∧
    ∀ w c, romInverse a l w = some c →
      (∀ k, k < chunkWidth l → c.getLsbD k = w.getLsbD (levelBase l + 3 * k + axisOffset a)) ∧
        c.toNat < 2 ^ chunkWidth l

/-- R128: the masked lookup never misses. -/
def Obligations.MaskedLookupNeverMisses : Prop :=
  ∀ (k : KeyWord) (a : Axis) (l : Level), ∃ c, romInverse a l (k &&& keyMask a l) = some c ∧
    ∀ j, j < chunkWidth l → c.getLsbD j = k.getLsbD (levelBase l + 3 * j + axisOffset a)

/-! Interleave and extract. -/

/-- R158: the closed form of INTERLEAVE, that every row it addresses is populated, that it is a bijection, and that the OR of
the nine contributions is their sum. -/
def Obligations.InterleaveIsTheKeyLayout : Prop :=
  (∀ (qx qy qz : QInt) (k : Nat), k < 21 →
    (interleave qx qy qz).getLsbD (3 * k) = qx.getLsbD k ∧
    (interleave qx qy qz).getLsbD (3 * k + 1) = qy.getLsbD k ∧
    (interleave qx qy qz).getLsbD (3 * k + 2) = qz.getLsbD k) ∧
  (∀ (l : Level) (q : QInt), populated l (chunkOf l q) = true) ∧
  Function.Bijective (fun q : QInt × QInt × QInt => interleave q.1 q.2.1 q.2.2) ∧
  ∀ qx qy qz : QInt, (interleave qx qy qz).toNat =
    (forwardWord .x .three (chunkOf .three qx)).toNat + (forwardWord .x .two (chunkOf .two qx)).toNat +
    (forwardWord .x .one (chunkOf .one qx)).toNat + (forwardWord .y .three (chunkOf .three qy)).toNat +
    (forwardWord .y .two (chunkOf .two qy)).toNat + (forwardWord .y .one (chunkOf .one qy)).toNat +
    (forwardWord .z .three (chunkOf .three qz)).toNat + (forwardWord .z .two (chunkOf .two qz)).toNat +
    (forwardWord .z .one (chunkOf .one qz)).toNat

/-- R182: the closed form of EXTRACT, and that it is the two-sided inverse of INTERLEAVE. -/
def Obligations.ExtractInvertsInterleave : Prop :=
  (∀ (a : Axis) (k : KeyWord) (j : Nat), j < 21 →
    (extractAxis a k).getLsbD j = k.getLsbD (3 * j + axisOffset a)) ∧
  (∀ qx qy qz : QInt, extractAxis .x (interleave qx qy qz) = qx ∧ extractAxis .y (interleave qx qy qz) = qy ∧
    extractAxis .z (interleave qx qy qz) = qz) ∧
  ∀ k : KeyWord, interleave (extractAxis .x k) (extractAxis .y k) (extractAxis .z k) = k

/-! The quantizer and the rescaler. -/

/-- R152, R84: the validity test on the fields is membership of the value in [-1.0, 1.0]. -/
def Obligations.ValidCoordIsTheUnitInterval : Prop :=
  ∀ b : Word, validCoord b = true ↔ InUnitInterval b

/-- R151: the quantizer computes floor(2^20 v + 2^20 + 1/2) exactly, an integer in 0..2^21. -/
def Obligations.QuantizerIsTheExactFloor : Prop :=
  ∀ (b : Word) (v : ℚ), validCoord b = true → coordValue b = some v →
    (quantRaw b : ℤ) = exactQuant v ∧ quantRaw b ≤ 2 ^ 21

/-- R153: which patterns quantize to 2^21, the clamp, and the notice SAT. -/
def Obligations.ClampAtTheTop : Prop :=
  (∀ b : Word, validCoord b = true →
    (quantRaw b = 2 ^ 21 ↔ 0x3FEFFFFF00000000#64 ≤ b ∧ b ≤ 0x3FF0000000000000#64) ∧
    (∀ v, coordValue b = some v → (quantRaw b = 2 ^ 21 ↔ 1 - 1 / 2 ^ 21 ≤ v)) ∧
    (quantize b).toNat = min (quantRaw b) (2 ^ 21 - 1) ∧ (quantSat b = true ↔ quantRaw b = 2 ^ 21)) ∧
  ∀ s : State, AllInUnitInterval s → SomeClamps s →
    ∃ t u, exec .qnt s = .next t ∧ exec .enc s = .next u ∧ hasFlag .sat t.status = true ∧ hasFlag .sat u.status = true

/-- R155: the end points, zeros and small values, grid points, ties, monotonicity, and the distance to the grid point. -/
def Obligations.QuantizerProperties : Prop :=
  (quantRaw 0xBFF0000000000000#64 = 0 ∧ quantRaw 0x3FF0000000000000#64 = 2 ^ 21 ∧
    quantize 0x3FF0000000000000#64 = 0x1FFFFF#21 ∧ quantSat 0x3FF0000000000000#64 = true ∧
    quantRaw 0xBFEFFFFF00000000#64 = 1) ∧
  (quantRaw 0x0000000000000000#64 = 0x100000 ∧ quantRaw 0x8000000000000000#64 = 0x100000) ∧
  (∀ b : Word, expField b = 0 → quantRaw b = 0x100000) ∧
  ∀ (b : Word) (v : ℚ), validCoord b = true → coordValue b = some v →
    (|v| < 1 / 2 ^ 21 → quantRaw b = 0x100000) ∧
    (∀ n : Nat, n ≤ 2 ^ 21 - 1 → v = (n : ℚ) / 2 ^ 20 - 1 → quantRaw b = n) ∧
    (∀ n : Nat, v = ((n : ℚ) + 1 / 2) / 2 ^ 20 - 1 → quantRaw b = n + 1) ∧
    (∀ (b' : Word) (v' : ℚ), validCoord b' = true → coordValue b' = some v' → v ≤ v' → quantRaw b ≤ quantRaw b') ∧
    (v < 1 - 1 / 2 ^ 21 → |gridValue (quantize b) - v| ≤ 1 / 2 ^ 21) ∧
    (1 - 1 / 2 ^ 21 ≤ v → quantize b = 0x1FFFFF#21 ∧ 1 / 2 ^ 21 ≤ v - (1 - 1 / 2 ^ 20) ∧
      v - (1 - 1 / 2 ^ 20) ≤ 1 / 2 ^ 20)

/-- R186, R187: the rescaled pattern's value is exactly (q - 2^20) / 2^20; the one zero is +0.0, and no result is a NaN, an
infinity, a subnormal or -0.0. -/
def Obligations.DequantIsExact : Prop :=
  ∀ q : QInt, coordValue (dequant q) = some (gridValue q) ∧
    (q = 0x100000#21 → dequant q = 0#64) ∧
    (q ≠ 0x100000#21 → 1003 ≤ expField (dequant q) ∧ expField (dequant q) ≤ 1023)

/-- R188: the rescaler's end points, that it is strictly increasing and injective, that a grid point quantizes to itself
without a clamp, and that the low 32 bits are zero. -/
def Obligations.DequantProperties : Prop :=
  (dequant 0#21 = 0xBFF0000000000000#64 ∧ dequant 0x100000#21 = 0#64 ∧ dequant 0x1FFFFF#21 = 0x3FEFFFFE00000000#64) ∧
  (∀ p q : QInt, p < q → ∃ v w, coordValue (dequant p) = some v ∧ coordValue (dequant q) = some w ∧ v < w) ∧
  Function.Injective dequant ∧
  ∀ q : QInt, dequant q ≠ 0x3FF0000000000000#64 ∧ validCoord (dequant q) = true ∧ quantize (dequant q) = q ∧
    quantSat (dequant q) = false ∧ (dequant q).extractLsb' 0 32 = 0#32

/-! The commands. Each result statement ends in the next state, so it is also the command's completion and its frame. -/

/-- R215: NOP changes nothing, and no other word with OP = 0 is a NOP. -/
def Obligations.NopChangesNothing : Prop :=
  (∀ s : State, exec .nop s = .next s) ∧ decode 0#64 = .ok .nop ∧
    ∀ w : Word, w.extractLsb' 0 8 = 0#8 → w ≠ 0#64 → ∀ i, decode w ≠ .ok i

/-- R216: CLR clears all five flags and nothing else. -/
def Obligations.ClrClearsAllFlags : Prop :=
  ∀ s : State, exec .clr s = .next { s with status := 0#5 }

/-- R160: on valid coordinates QNT stores the clamped exact floors in QX, QY, QZ, raises SAT exactly when one clamps, and
changes nothing else; otherwise it raises RANGE and changes nothing else. -/
def Obligations.QntStoresTheExactFloors : Prop :=
  ∀ s : State,
    (AllInUnitInterval s → ∃ t, exec .qnt s = .next t ∧
      t = { s with qx := t.qx, qy := t.qy, qz := t.qz, status := t.status } ∧
      (∀ a v, coordValue (coordReg a s) = some v → ((qReg a t).toNat : ℤ) = min (exactQuant v) (2 ^ 21 - 1)) ∧
      (SomeClamps s → t.status = s.status ||| 0x10#5) ∧ (¬ SomeClamps s → t.status = s.status)) ∧
    (¬ AllInUnitInterval s → exec .qnt s = .next { s with status := s.status ||| 0x01#5 })

/-- R152: validity on the fields; QNT and ENC on an invalid coordinate raise RANGE and write nothing. -/
def Obligations.InvalidCoordinateRaisesRange : Prop :=
  (∀ b : Word, validCoord b = true ↔ (b.extractLsb' 52 11).toNat ≤ 1022 ∨
    ((b.extractLsb' 52 11).toNat = 1023 ∧ b.extractLsb' 0 52 = 0#52)) ∧
  ∀ (s : State) (a : Axis), validCoord (coordReg a s) = false →
    exec .qnt s = .next { s with status := s.status ||| 0x01#5 } ∧
    exec .enc s = .next { s with status := s.status ||| 0x01#5 }

/-- R161, R80: ILV writes the key whose bit 3k + a is bit k of axis a, with bit 63 zero, and nothing else. -/
def Obligations.IlvWritesTheKeyLayout : Prop :=
  ∀ s : State, ∃ k : Word, exec .ilv s = .next { s with key := k } ∧ k.getLsbD 63 = false ∧
    ∀ (a : Axis) (j : Nat), j < 21 → k.getLsbD (3 * j + axisOffset a) = (qReg a s).getLsbD j

/-- R162: ENC is QNT followed, when QNT did not fault, by ILV. -/
def Obligations.EncIsQntThenIlv : Prop :=
  ∀ s : State,
    (AllInUnitInterval s → ∃ t u, exec .qnt s = .next t ∧ exec .ilv t = .next u ∧ exec .enc s = .next u) ∧
    (¬ AllInUnitInterval s → exec .enc s = .next { s with status := s.status ||| 0x01#5 } ∧ exec .enc s = exec .qnt s)

/-- R162, R158, R159: on valid coordinates ENC stores the clamped exact floors in QX, QY, QZ and the key laid out from them
in KEY, bit 63 zero, raises SAT exactly when one clamps, and changes nothing else. -/
def Obligations.EncStoresFloorsAndKey : Prop :=
  ∀ s : State, AllInUnitInterval s → ∃ t, exec .enc s = .next t ∧
    t = { s with qx := t.qx, qy := t.qy, qz := t.qz, key := t.key, status := t.status } ∧
    (∀ a v, coordValue (coordReg a s) = some v → ((qReg a t).toNat : ℤ) = min (exactQuant v) (2 ^ 21 - 1)) ∧
    (∀ (a : Axis) (j : Nat), j < 21 → t.key.getLsbD (3 * j + axisOffset a) = (qReg a t).getLsbD j) ∧
    t.key.getLsbD 63 = false ∧
    (SomeClamps s → t.status = s.status ||| 0x10#5) ∧ (¬ SomeClamps s → t.status = s.status)

/-- R163: the source's bit-position contract and its boundary key, from every state with those coordinates. -/
def Obligations.EncBitPositionContract : Prop :=
  ∀ s : State,
    (exec .enc { s with x := 0xBFEFFFFE00000000#64, y := 0xBFF0000000000000#64, z := 0xBFF0000000000000#64 } =
      .next { s with x := 0xBFEFFFFE00000000#64, y := 0xBFF0000000000000#64, z := 0xBFF0000000000000#64,
                     qx := 1#21, qy := 0#21, qz := 0#21, key := 1#64 }) ∧
    (exec .enc { s with x := 0xBFF0000000000000#64, y := 0xBFEFFFFE00000000#64, z := 0xBFF0000000000000#64 } =
      .next { s with x := 0xBFF0000000000000#64, y := 0xBFEFFFFE00000000#64, z := 0xBFF0000000000000#64,
                     qx := 0#21, qy := 1#21, qz := 0#21, key := 2#64 }) ∧
    (exec .enc { s with x := 0xBFF0000000000000#64, y := 0xBFF0000000000000#64, z := 0xBFEFFFFE00000000#64 } =
      .next { s with x := 0xBFF0000000000000#64, y := 0xBFF0000000000000#64, z := 0xBFEFFFFE00000000#64,
                     qx := 0#21, qy := 0#21, qz := 1#21, key := 4#64 }) ∧
    exec .enc { s with x := 0x3FEFFFFE00000000#64, y := 0x3FEFFFFE00000000#64, z := 0x3FEFFFFE00000000#64 } =
      .next { s with x := 0x3FEFFFFE00000000#64, y := 0x3FEFFFFE00000000#64, z := 0x3FEFFFFE00000000#64,
                     qx := 0x1FFFFF#21, qy := 0x1FFFFF#21, qz := 0x1FFFFF#21, key := 0x7FFFFFFFFFFFFFFF#64 }

/-- R191, R183: EXT reads bit j of axis a from key bit 3j + a, raises KEY63 when bit 63 is set, and changes nothing else. -/
def Obligations.ExtReadsTheKeyLayout : Prop :=
  ∀ s : State, ∃ qx qy qz : QInt,
    exec .ext s = .next { s with qx := qx, qy := qy, qz := qz,
                                 status := if s.key.getLsbD 63 then s.status ||| 0x08#5 else s.status } ∧
    ∀ j, j < 21 → qx.getLsbD j = s.key.getLsbD (3 * j) ∧ qy.getLsbD j = s.key.getLsbD (3 * j + 1) ∧
      qz.getLsbD j = s.key.getLsbD (3 * j + 2)

/-- R192, R186: DEQ writes to X, Y, Z patterns whose values are exactly (q - 2^20) / 2^20, +0.0 for q = 2^20, and changes
nothing else. -/
def Obligations.DeqRescalesExactly : Prop :=
  ∀ s : State, ∃ x y z : Word, exec .deq s = .next { s with x := x, y := y, z := z } ∧
    coordValue x = some (gridValue s.qx) ∧ coordValue y = some (gridValue s.qy) ∧ coordValue z = some (gridValue s.qz) ∧
    (s.qx = 0x100000#21 → x = 0#64) ∧ (s.qy = 0x100000#21 → y = 0#64) ∧ (s.qz = 0x100000#21 → z = 0#64)

/-- R193: DEC is EXT followed by DEQ. -/
def Obligations.DecIsExtThenDeq : Prop :=
  ∀ s : State, ∃ t u, exec .ext s = .next t ∧ exec .deq t = .next u ∧ exec .dec s = .next u

/-- R193, R182, R186: DEC stores the extracted integers in QX, QY, QZ and patterns of exactly their values in X, Y, Z, raises
KEY63 when bit 63 is set, and changes nothing else. -/
def Obligations.DecReadsTheKeyAndRescales : Prop :=
  ∀ s : State, ∃ t, exec .dec s = .next t ∧
    t = { s with qx := t.qx, qy := t.qy, qz := t.qz, x := t.x, y := t.y, z := t.z,
                 status := if s.key.getLsbD 63 then s.status ||| 0x08#5 else s.status } ∧
    ∀ a, (∀ j, j < 21 → (qReg a t).getLsbD j = s.key.getLsbD (3 * j + axisOffset a)) ∧
      coordValue (coordReg a t) = some (gridValue (qReg a t))

/-- R130: a legal LUTF writes to ROMD the word with bit k of the row at bit base(l) + 3k + a, bit 63 zero, and changes
nothing else. -/
def Obligations.LutfReadsTheForwardWord : Prop :=
  ∀ (s : State) (a : Axis) (l : Level) (row : Chunk), (Instr.lutf a l row).wellFormed = true →
    ∃ v : Word, exec (.lutf a l row) s = .next { s with romd := v } ∧
      ∀ j, v.getLsbD j = true ↔ ∃ k, k < 8 ∧ row.getLsbD k = true ∧ j = levelBase l + 3 * k + axisOffset a

/-- R96, R233, with the model's choice of notes/assumptions/6.md: a LUTF term that names an unpopulated row, which no word
decodes to, raises ILL and leaves everything else. -/
def Obligations.UnpopulatedLutfTermRaisesIll : Prop :=
  ∀ (s : State) (a : Axis) (row : Chunk), 31 < row.toNat →
    exec (.lutf a .one row) s = .next { s with status := s.status ||| 0x02#5 } ∧ ∀ w, decode w ≠ .ok (.lutf a .one row)

/-- R131: LUTI hits exactly when KEY[62:0] has no bit outside the mask, and then writes the chunk to ROMD; otherwise it
raises MISS and leaves ROMD; KEY63 is raised either way when KEY[63] is set. -/
def Obligations.LutiHitsExactlyInsideTheMask : Prop :=
  ∀ (s : State) (a : Axis) (l : Level),
    (s.key.extractLsb' 0 63 &&& ~~~ keyMask a l = 0#63 → ∃ c : Chunk,
      exec (.luti a l) s = .next { s with romd := c.zeroExtend 64,
                                          status := if s.key.getLsbD 63 then s.status ||| 0x08#5 else s.status } ∧
      (∀ k, k < chunkWidth l → c.getLsbD k = s.key.getLsbD (levelBase l + 3 * k + axisOffset a)) ∧
      c.toNat < 2 ^ chunkWidth l) ∧
    (s.key.extractLsb' 0 63 &&& ~~~ keyMask a l ≠ 0#63 →
      exec (.luti a l) s = .next { s with
        status := if s.key.getLsbD 63 then s.status ||| 0x0C#5 else s.status ||| 0x04#5 })

/-! Round trips. -/

/-- R189: DEC after ENC gives each coordinate back within the bound of its domain; SAT tells the domains apart. -/
def Obligations.EncodeThenDecodeErrorBound : Prop :=
  ∀ s : State, AllInUnitInterval s → ∃ t u, exec .enc s = .next t ∧ exec .dec t = .next u ∧
    (SomeClamps s → u.status = s.status ||| 0x10#5) ∧ (¬ SomeClamps s → u.status = s.status) ∧
    ∀ a v, coordValue (coordReg a s) = some v → ∃ v', coordValue (coordReg a u) = some v' ∧ |v' - v| ≤ 1 / 2 ^ 20 ∧
      (v < 1 - 1 / 2 ^ 21 → |v' - v| ≤ 1 / 2 ^ 21) ∧
      (1 - 1 / 2 ^ 21 ≤ v → v' = 1 - 1 / 2 ^ 20 ∧ 1 / 2 ^ 21 ≤ v - v' ∧ v - v' ≤ 1 / 2 ^ 20)

/-- R189: ENC after DEC returns KEY[62:0] with no flag, and leaves the Q registers as DEC wrote them. -/
def Obligations.DecodeThenEncodeRestoresTheKey : Prop :=
  ∀ s : State, ∃ t, exec .dec s = .next t ∧
    exec .enc t = .next { t with key := (s.key.extractLsb' 0 63).zeroExtend 64 }

/-! Rules about the whole machine. -/

/-- R25, R234, R241: only CLR and reset clear a flag, and they clear all five. -/
def Obligations.FlagsAreSticky : Prop :=
  ∀ (program : List HostInput) (r s t : State) (e : HostInput), nextInput program r = some (e, s) →
    stepWith program r = .next t →
    (clearsFlags e = true → t.status = 0#5) ∧
    (clearsFlags e = false → ∀ f, hasFlag f r.status = true → hasFlag f t.status = true)

/-- R234: no command but CLR reads a flag: the data it writes and the flags it raises are the same whatever STATUS holds. -/
def Obligations.StatusNeverAltersACommand : Prop :=
  ∀ (i : Instr) (s : State), i ≠ .clr → ∃ (t : State) (raised : StatusBits),
    ∀ st, exec i { s with status := st } = .next { t with status := st ||| raised }

/-- R235: one transaction raises at most one fault, and the only pair of flags it can raise together is KEY63 with MISS. -/
def Obligations.FlagsRaisedTogether : Prop :=
  ∀ (program : List HostInput) (s t : State), s.status = 0#5 → stepWith program s = .next t →
    t.status ∈ [0#5, flagMask .range, flagMask .ill, flagMask .miss, flagMask .key63, flagMask .sat,
      flagMask .key63 ||| flagMask .miss]

/-- R231, R240, with KEY63 beside MISS as R131 and R235 say (notes/assumptions/5.md): a transaction that raises a fault
changes nothing but STATUS, and a read that raises one returns 0. -/
def Obligations.FaultsArePrecise : Prop :=
  ∀ (program : List HostInput) (r s t : State) (e : HostInput) (f : Flag), flagIsFault f = true →
    hasFlag f r.status = false → nextInput program r = some (e, s) → stepWith program r = .next t →
    hasFlag f t.status = true →
    t = { s with status := t.status, observed := if isRead e then s.observed ++ [0#64] else s.observed } ∧
      (t.status = r.status ||| flagMask f ∨ (f = .miss ∧ t.status = r.status ||| flagMask .miss ||| flagMask .key63))

/-- R20: a command changes no data register but those the register table says it writes, and nothing of the host's. -/
def Obligations.CommandsWriteOnlyTheirRegisters : Prop :=
  ∀ (i : Instr) (s t : State), exec i s = .next t →
    (∀ r, r ∉ commandWrites i → r ≠ .status → readReg r t = readReg r s) ∧
      t.issued = s.issued ∧ t.offered = s.offered ∧ t.observed = s.observed

/-- R30: what a command writes is a function of the command word and the registers it reads: in two states that agree on
those, it either writes nothing in both, or writes the same, and it raises the same flags. -/
def Obligations.CommandsReadOnlyTheirRegisters : Prop :=
  ∀ (i : Instr) (s u : State), (∀ r ∈ commandReads i, readReg r s = readReg r u) → ∃ t v,
    exec i s = .next t ∧ exec i u = .next v ∧ (s.status = u.status → t.status = v.status) ∧
      ((∀ r ∈ commandWrites i, readReg r t = readReg r v) ∨
        ∀ r ∈ commandWrites i, readReg r t = readReg r s ∧ readReg r v = readReg r u)

/-- R58, R270: repeating a command at once changes nothing more; no command has a register as both source and destination. -/
def Obligations.RepeatedCommandChangesNothingMore : Prop :=
  (∀ (i : Instr) (s t : State), exec i s = .next t → exec i t = .next t) ∧
    ∀ (i : Instr) (r : RegName), r ∈ commandReads i → r ∉ commandWrites i

/-- R242: an ENC that leaves RANGE and SAT clear had inputs in [-1.0, 1 - 2^-21), and the 2^-21 bound applies to it. -/
def Obligations.CleanEncIsWithinHalfAStep : Prop :=
  ∀ s t : State, exec .enc s = .next t → hasFlag .range t.status = false → hasFlag .sat t.status = false →
    ∃ u, exec .dec t = .next u ∧ ∀ a, ∃ v v', coordValue (coordReg a s) = some v ∧
      coordValue (coordReg a u) = some v' ∧ -1 ≤ v ∧ v < 1 - 1 / 2 ^ 21 ∧ |v' - v| ≤ 1 / 2 ^ 21

/-- R242, R234: for every list of the host's, in a run without CLR and reset that ends with a clean STATUS, every state on the
way has a clean STATUS. -/
def Obligations.CleanStatusProvesACleanRun : Prop :=
  ∀ (program : List HostInput) (n : Nat) (s t : State),
    (∀ k e, k < n → program[s.issued + k]? = some e → clearsFlags e = false) →
    (∀ e, s.offered = some e → clearsFlags e = false) →
    (coreWith program).run n s = .next t → CleanStatus t →
    ∀ m, m ≤ n → ∃ u : State, (coreWith program).run m s = .next u ∧ CleanStatus u

/-- R24: ROMD holds a table read in every state that a step from such a state leads to, whatever the host's list. -/
def Obligations.RomdStaysATableRead : Prop :=
  (∀ s t : State, RomdIsTableRead s → step s = .next t → RomdIsTableRead t) ∧
    ∀ (program : List HostInput) (s t : State), RomdIsTableRead s → stepWith program s = .next t → RomdIsTableRead t

/-- R24, R34: ROMD holds a table read at reset, row 0 of a table. -/
def Obligations.RomdIsATableReadAtReset : Prop :=
  RomdIsTableRead State.reset
end

