-- ==== Sys2Proof/Laws/State.lean ====
section
/-! SUPPORT. One lemma per field of State per update, so that no proof unfolds a record update. -/

namespace Sys2Proof.Machine

/-! After raising a flag (R234). -/

@[simp] theorem raise_x (f : Flag) (s : State) : (raise f s).x = s.x := rfl
@[simp] theorem raise_y (f : Flag) (s : State) : (raise f s).y = s.y := rfl
@[simp] theorem raise_z (f : Flag) (s : State) : (raise f s).z = s.z := rfl
@[simp] theorem raise_key (f : Flag) (s : State) : (raise f s).key = s.key := rfl
@[simp] theorem raise_qx (f : Flag) (s : State) : (raise f s).qx = s.qx := rfl
@[simp] theorem raise_qy (f : Flag) (s : State) : (raise f s).qy = s.qy := rfl
@[simp] theorem raise_qz (f : Flag) (s : State) : (raise f s).qz = s.qz := rfl
@[simp] theorem raise_romd (f : Flag) (s : State) : (raise f s).romd = s.romd := rfl
@[simp] theorem raise_status (f : Flag) (s : State) : (raise f s).status = setFlag f s.status := rfl
@[simp] theorem raise_issued (f : Flag) (s : State) : (raise f s).issued = s.issued := rfl
@[simp] theorem raise_offered (f : Flag) (s : State) : (raise f s).offered = s.offered := rfl
@[simp] theorem raise_observed (f : Flag) (s : State) : (raise f s).observed = s.observed := rfl

/-! After raising a notice (R232). -/

@[simp] theorem noticeWhen_x (c : Bool) (f : Flag) (s : State) : (noticeWhen c f s).x = s.x := by cases c <;> rfl
@[simp] theorem noticeWhen_y (c : Bool) (f : Flag) (s : State) : (noticeWhen c f s).y = s.y := by cases c <;> rfl
@[simp] theorem noticeWhen_z (c : Bool) (f : Flag) (s : State) : (noticeWhen c f s).z = s.z := by cases c <;> rfl
@[simp] theorem noticeWhen_key (c : Bool) (f : Flag) (s : State) : (noticeWhen c f s).key = s.key := by cases c <;> rfl
@[simp] theorem noticeWhen_qx (c : Bool) (f : Flag) (s : State) : (noticeWhen c f s).qx = s.qx := by cases c <;> rfl
@[simp] theorem noticeWhen_qy (c : Bool) (f : Flag) (s : State) : (noticeWhen c f s).qy = s.qy := by cases c <;> rfl
@[simp] theorem noticeWhen_qz (c : Bool) (f : Flag) (s : State) : (noticeWhen c f s).qz = s.qz := by cases c <;> rfl
@[simp] theorem noticeWhen_romd (c : Bool) (f : Flag) (s : State) : (noticeWhen c f s).romd = s.romd := by cases c <;> rfl
@[simp] theorem noticeWhen_status (c : Bool) (f : Flag) (s : State) : (noticeWhen c f s).status = if c then setFlag f s.status else s.status := by cases c <;> rfl
@[simp] theorem noticeWhen_issued (c : Bool) (f : Flag) (s : State) : (noticeWhen c f s).issued = s.issued := by cases c <;> rfl
@[simp] theorem noticeWhen_offered (c : Bool) (f : Flag) (s : State) : (noticeWhen c f s).offered = s.offered := by cases c <;> rfl
@[simp] theorem noticeWhen_observed (c : Bool) (f : Flag) (s : State) : (noticeWhen c f s).observed = s.observed := by cases c <;> rfl

/-! After clearing the flags (R216). -/

@[simp] theorem clearFlags_x (s : State) : (clearFlags s).x = s.x := rfl
@[simp] theorem clearFlags_y (s : State) : (clearFlags s).y = s.y := rfl
@[simp] theorem clearFlags_z (s : State) : (clearFlags s).z = s.z := rfl
@[simp] theorem clearFlags_key (s : State) : (clearFlags s).key = s.key := rfl
@[simp] theorem clearFlags_qx (s : State) : (clearFlags s).qx = s.qx := rfl
@[simp] theorem clearFlags_qy (s : State) : (clearFlags s).qy = s.qy := rfl
@[simp] theorem clearFlags_qz (s : State) : (clearFlags s).qz = s.qz := rfl
@[simp] theorem clearFlags_romd (s : State) : (clearFlags s).romd = s.romd := rfl
@[simp] theorem clearFlags_status (s : State) : (clearFlags s).status = 0#5 := rfl
@[simp] theorem clearFlags_issued (s : State) : (clearFlags s).issued = s.issued := rfl
@[simp] theorem clearFlags_offered (s : State) : (clearFlags s).offered = s.offered := rfl
@[simp] theorem clearFlags_observed (s : State) : (clearFlags s).observed = s.observed := rfl

/-! After writing the Q registers. -/

@[simp] theorem writeQ_x (qx qy qz : QInt) (s : State) : (writeQ qx qy qz s).x = s.x := rfl
@[simp] theorem writeQ_y (qx qy qz : QInt) (s : State) : (writeQ qx qy qz s).y = s.y := rfl
@[simp] theorem writeQ_z (qx qy qz : QInt) (s : State) : (writeQ qx qy qz s).z = s.z := rfl
@[simp] theorem writeQ_key (qx qy qz : QInt) (s : State) : (writeQ qx qy qz s).key = s.key := rfl
@[simp] theorem writeQ_qx (qx qy qz : QInt) (s : State) : (writeQ qx qy qz s).qx = qx := rfl
@[simp] theorem writeQ_qy (qx qy qz : QInt) (s : State) : (writeQ qx qy qz s).qy = qy := rfl
@[simp] theorem writeQ_qz (qx qy qz : QInt) (s : State) : (writeQ qx qy qz s).qz = qz := rfl
@[simp] theorem writeQ_romd (qx qy qz : QInt) (s : State) : (writeQ qx qy qz s).romd = s.romd := rfl
@[simp] theorem writeQ_status (qx qy qz : QInt) (s : State) : (writeQ qx qy qz s).status = s.status := rfl
@[simp] theorem writeQ_issued (qx qy qz : QInt) (s : State) : (writeQ qx qy qz s).issued = s.issued := rfl
@[simp] theorem writeQ_offered (qx qy qz : QInt) (s : State) : (writeQ qx qy qz s).offered = s.offered := rfl
@[simp] theorem writeQ_observed (qx qy qz : QInt) (s : State) : (writeQ qx qy qz s).observed = s.observed := rfl

/-! After writing the coordinate registers. -/

@[simp] theorem writeCoords_x (x y z : Word) (s : State) : (writeCoords x y z s).x = x := rfl
@[simp] theorem writeCoords_y (x y z : Word) (s : State) : (writeCoords x y z s).y = y := rfl
@[simp] theorem writeCoords_z (x y z : Word) (s : State) : (writeCoords x y z s).z = z := rfl
@[simp] theorem writeCoords_key (x y z : Word) (s : State) : (writeCoords x y z s).key = s.key := rfl
@[simp] theorem writeCoords_qx (x y z : Word) (s : State) : (writeCoords x y z s).qx = s.qx := rfl
@[simp] theorem writeCoords_qy (x y z : Word) (s : State) : (writeCoords x y z s).qy = s.qy := rfl
@[simp] theorem writeCoords_qz (x y z : Word) (s : State) : (writeCoords x y z s).qz = s.qz := rfl
@[simp] theorem writeCoords_romd (x y z : Word) (s : State) : (writeCoords x y z s).romd = s.romd := rfl
@[simp] theorem writeCoords_status (x y z : Word) (s : State) : (writeCoords x y z s).status = s.status := rfl
@[simp] theorem writeCoords_issued (x y z : Word) (s : State) : (writeCoords x y z s).issued = s.issued := rfl
@[simp] theorem writeCoords_offered (x y z : Word) (s : State) : (writeCoords x y z s).offered = s.offered := rfl
@[simp] theorem writeCoords_observed (x y z : Word) (s : State) : (writeCoords x y z s).observed = s.observed := rfl

/-! After writing KEY (R22). -/

@[simp] theorem writeKey_x (k : KeyWord) (s : State) : (writeKey k s).x = s.x := rfl
@[simp] theorem writeKey_y (k : KeyWord) (s : State) : (writeKey k s).y = s.y := rfl
@[simp] theorem writeKey_z (k : KeyWord) (s : State) : (writeKey k s).z = s.z := rfl
@[simp] theorem writeKey_key (k : KeyWord) (s : State) : (writeKey k s).key = k.setWidth 64 := rfl
@[simp] theorem writeKey_qx (k : KeyWord) (s : State) : (writeKey k s).qx = s.qx := rfl
@[simp] theorem writeKey_qy (k : KeyWord) (s : State) : (writeKey k s).qy = s.qy := rfl
@[simp] theorem writeKey_qz (k : KeyWord) (s : State) : (writeKey k s).qz = s.qz := rfl
@[simp] theorem writeKey_romd (k : KeyWord) (s : State) : (writeKey k s).romd = s.romd := rfl
@[simp] theorem writeKey_status (k : KeyWord) (s : State) : (writeKey k s).status = s.status := rfl
@[simp] theorem writeKey_issued (k : KeyWord) (s : State) : (writeKey k s).issued = s.issued := rfl
@[simp] theorem writeKey_offered (k : KeyWord) (s : State) : (writeKey k s).offered = s.offered := rfl
@[simp] theorem writeKey_observed (k : KeyWord) (s : State) : (writeKey k s).observed = s.observed := rfl

/-! After writing ROMD (R24). -/

@[simp] theorem writeRomd_x (v : Word) (s : State) : (writeRomd v s).x = s.x := rfl
@[simp] theorem writeRomd_y (v : Word) (s : State) : (writeRomd v s).y = s.y := rfl
@[simp] theorem writeRomd_z (v : Word) (s : State) : (writeRomd v s).z = s.z := rfl
@[simp] theorem writeRomd_key (v : Word) (s : State) : (writeRomd v s).key = s.key := rfl
@[simp] theorem writeRomd_qx (v : Word) (s : State) : (writeRomd v s).qx = s.qx := rfl
@[simp] theorem writeRomd_qy (v : Word) (s : State) : (writeRomd v s).qy = s.qy := rfl
@[simp] theorem writeRomd_qz (v : Word) (s : State) : (writeRomd v s).qz = s.qz := rfl
@[simp] theorem writeRomd_romd (v : Word) (s : State) : (writeRomd v s).romd = v := rfl
@[simp] theorem writeRomd_status (v : Word) (s : State) : (writeRomd v s).status = s.status := rfl
@[simp] theorem writeRomd_issued (v : Word) (s : State) : (writeRomd v s).issued = s.issued := rfl
@[simp] theorem writeRomd_offered (v : Word) (s : State) : (writeRomd v s).offered = s.offered := rfl
@[simp] theorem writeRomd_observed (v : Word) (s : State) : (writeRomd v s).observed = s.observed := rfl

/-! After handing rdata to the host (R217). -/

@[simp] theorem observe_x (v : Word) (s : State) : (observe v s).x = s.x := rfl
@[simp] theorem observe_y (v : Word) (s : State) : (observe v s).y = s.y := rfl
@[simp] theorem observe_z (v : Word) (s : State) : (observe v s).z = s.z := rfl
@[simp] theorem observe_key (v : Word) (s : State) : (observe v s).key = s.key := rfl
@[simp] theorem observe_qx (v : Word) (s : State) : (observe v s).qx = s.qx := rfl
@[simp] theorem observe_qy (v : Word) (s : State) : (observe v s).qy = s.qy := rfl
@[simp] theorem observe_qz (v : Word) (s : State) : (observe v s).qz = s.qz := rfl
@[simp] theorem observe_romd (v : Word) (s : State) : (observe v s).romd = s.romd := rfl
@[simp] theorem observe_status (v : Word) (s : State) : (observe v s).status = s.status := rfl
@[simp] theorem observe_issued (v : Word) (s : State) : (observe v s).issued = s.issued := rfl
@[simp] theorem observe_offered (v : Word) (s : State) : (observe v s).offered = s.offered := rfl
@[simp] theorem observe_observed (v : Word) (s : State) : (observe v s).observed = s.observed ++ [v] := rfl

/-! After the reset input (R261). -/

@[simp] theorem hostReset_x (s : State) : (hostReset s).x = 0#64 := rfl
@[simp] theorem hostReset_y (s : State) : (hostReset s).y = 0#64 := rfl
@[simp] theorem hostReset_z (s : State) : (hostReset s).z = 0#64 := rfl
@[simp] theorem hostReset_key (s : State) : (hostReset s).key = 0#64 := rfl
@[simp] theorem hostReset_qx (s : State) : (hostReset s).qx = 0#21 := rfl
@[simp] theorem hostReset_qy (s : State) : (hostReset s).qy = 0#21 := rfl
@[simp] theorem hostReset_qz (s : State) : (hostReset s).qz = 0#21 := rfl
@[simp] theorem hostReset_romd (s : State) : (hostReset s).romd = 0#64 := rfl
@[simp] theorem hostReset_status (s : State) : (hostReset s).status = 0#5 := rfl
@[simp] theorem hostReset_issued (s : State) : (hostReset s).issued = s.issued := rfl
@[simp] theorem hostReset_offered (s : State) : (hostReset s).offered = s.offered := rfl
@[simp] theorem hostReset_observed (s : State) : (hostReset s).observed = s.observed := rfl

end Sys2Proof.Machine
end

