-- ==== Sys2Proof/Laws/Ops.lean ====
section
/-! SUPPORT. What each shared operation does, said once: flags, the register map, operands, commands, transactions, the
step. A proof cites these and unfolds nothing. -/

namespace Sys2Proof.Machine

/-! Flags. -/

/-- Raising sets the one flag and keeps the others (R234). -/
theorem hasFlag_setFlag (f g : Flag) (st : StatusBits) :
    hasFlag g (setFlag f st) = (decide (f = g) || hasFlag g st) := by
  cases f <;> cases g <;> revert st <;> decide

/-- Raising a flag that is set changes nothing (R25). -/
theorem setFlag_of_hasFlag (f : Flag) (st : StatusBits) (h : hasFlag f st = true) : setFlag f st = st := by
  revert st; cases f <;> decide

@[simp] theorem setFlag_setFlag (f : Flag) (st : StatusBits) : setFlag f (setFlag f st) = setFlag f st := by
  revert st; cases f <;> decide

/-- Flags may be raised in any order. -/
theorem setFlag_comm (f g : Flag) (st : StatusBits) : setFlag f (setFlag g st) = setFlag g (setFlag f st) := by
  revert st; cases f <;> cases g <;> decide

/-- Two status words with the same five flags are equal (R25). -/
theorem status_ext {st st' : StatusBits} (h : ∀ f, hasFlag f st = hasFlag f st') : st = st' := by
  have h0 := h .range
  have h1 := h .ill
  have h2 := h .miss
  have h3 := h .key63
  have h4 := h .sat
  clear h
  revert st st'
  decide

/-! The register map (R20, R59). -/

/-- Indices 10 to 15 are unmapped, and only they. -/
theorem regAt_eq_none_iff (idx : RegIdx) : regAt idx = none ↔ 10 ≤ idx.toNat := by
  revert idx; decide

/-- Index 9 is CMD, and only it. -/
theorem regAt_eq_cmd_iff (idx : RegIdx) : regAt idx = some .cmd ↔ idx = 9#4 := by
  revert idx; decide

/-! Operands. -/

/-- Every row a quantized integer addresses is populated (R156). -/
theorem populated_chunkOf (l : Level) (q : QInt) : populated l (chunkOf l q) = true := by
  cases l with
  | one => simp [populated, chunkWidth, chunkOf]; omega
  | two => exact decide_eq_true (chunkOf .two q).isLt
  | three => exact decide_eq_true (chunkOf .three q).isLt

/-- So the forward ROM answers with the word of that chunk (R55, R157). -/
theorem romForward_chunkOf (a : Axis) (l : Level) (q : QInt) :
    romForward a l (chunkOf l q) = some (forwardWord a l (chunkOf l q)) := by
  simp [romForward, populated_chunkOf]

/-- The two ways a forward read ends (R51, R55). -/
theorem romForward_cases (a : Axis) (l : Level) (row : Chunk) :
    (populated l row = true ∧ romForward a l row = some (forwardWord a l row)) ∨
      (populated l row = false ∧ romForward a l row = none) := by
  cases h : populated l row <;> simp [romForward, h]

/-- What an inverse lookup that hits has found (R56). -/
theorem romInverse_some {a : Axis} {l : Level} {w : KeyWord} {c : Chunk} (h : romInverse a l w = some c) :
    c ∈ populatedRows l ∧ forwardWord a l c = w := by
  refine ⟨List.mem_of_find?_eq_some h, ?_⟩
  simpa using List.find?_some h

/-- What an inverse lookup that misses has found (R56). -/
theorem romInverse_none {a : Axis} {l : Level} {w : KeyWord} (h : romInverse a l w = none) :
    ∀ c ∈ populatedRows l, forwardWord a l c ≠ w := by
  simpa [romInverse] using h

/-- A row that a LUTF term names legally is populated (R94 item 4). -/
theorem populated_of_wellFormed {a : Axis} {l : Level} {row : Chunk} (h : (Instr.lutf a l row).wellFormed = true) :
    populated l row = true := by
  cases l with
  | one => simpa [Instr.wellFormed, populated, chunkWidth, Nat.lt_succ_iff] using h
  | two => exact decide_eq_true row.isLt
  | three => exact decide_eq_true row.isLt

/-! Taking a fault, and the commands: each answers a next state, whatever the state. -/

@[simp] theorem takeFault_eq (f : Flag) (s : State) : takeFault f s = .next (raise f s) := rfl

theorem execQnt_cases (s : State) :
    (coordsValid s = true ∧ execQnt s = .next (noticeWhen (anySat s) .sat (quantizeRegs s))) ∨
      (coordsValid s = false ∧ execQnt s = .next (raise .range s)) := by
  cases h : coordsValid s <;> simp [execQnt, h]

theorem execEnc_cases (s : State) :
    (coordsValid s = true ∧ execEnc s = .next (noticeWhen (anySat s) .sat
      (writeKey (interleave (quantize s.x) (quantize s.y) (quantize s.z)) (quantizeRegs s)))) ∨
      (coordsValid s = false ∧ execEnc s = .next (raise .range s)) := by
  cases h : coordsValid s <;> simp [execEnc, h]

theorem execLutf_cases (a : Axis) (l : Level) (row : Chunk) (s : State) :
    (populated l row = true ∧ execLutf a l row s = .next (writeRomd ((forwardWord a l row).setWidth 64) s)) ∨
      (populated l row = false ∧ execLutf a l row s = .next (raise .ill s)) := by
  rcases romForward_cases a l row with ⟨h, e⟩ | ⟨h, e⟩
  · exact .inl ⟨h, by simp [execLutf, e]⟩
  · exact .inr ⟨h, by simp [execLutf, e]⟩

theorem execLuti_cases (a : Axis) (l : Level) (s : State) :
    (∃ c, romInverse a l (keyOperand s) = some c ∧
      execLuti a l s = .next (writeRomd (c.setWidth 64) (noticeWhen (key63 s) .key63 s))) ∨
      (romInverse a l (keyOperand s) = none ∧
        execLuti a l s = .next (raise .miss (noticeWhen (key63 s) .key63 s))) := by
  cases h : romInverse a l (keyOperand s) with
  | none => exact .inr ⟨rfl, by simp [execLuti, h]⟩
  | some c => exact .inl ⟨c, rfl, by simp [execLuti, h]⟩

/-! Transactions and the step. -/

/-- A CMD write runs the decoded command or raises ILL (R95, R96). -/
theorem runCommand_cases (w : Word) (s : State) :
    (∃ i, decode w = .ok i ∧ runCommand w s = exec i s) ∨
      (∃ e, decode w = .error e ∧ runCommand w s = .next (raise .ill s)) := by
  cases h : decode w with
  | ok i => exact .inl ⟨i, rfl, by simp [runCommand, h]⟩
  | error e => exact .inr ⟨e, rfl, by simp [runCommand, h]⟩

/-- A write to CMD is a command (R26). -/
theorem hostWrite_cmd (w : Word) (s : State) : hostWrite 9#4 w s = runCommand w s := rfl

/-- All that taking the next input can be: the offered one, or the list's next one, and nothing of the block changes
(R19, R217). -/
theorem nextInput_cases {program : List HostInput} {r s : State} {e : HostInput} (h : nextInput program r = some (e, s)) :
    (r.offered = some e ∧ s = { r with offered := none }) ∨
      (r.offered = none ∧ program[r.issued]? = some e ∧ s = { r with issued := r.issued + 1 }) := by
  cases hr : r.offered with
  | some d =>
    simp only [nextInput, hr, Option.some.injEq, Prod.mk.injEq] at h
    exact .inl ⟨by rw [h.1], h.2.symm⟩
  | none =>
    simp only [nextInput, hr, Option.map_eq_some_iff, Prod.mk.injEq] at h
    obtain ⟨d, hd, rfl, rfl⟩ := h
    exact .inr ⟨rfl, hd, rfl⟩

/-- There is no next input exactly when nothing is offered and the list is used up. -/
theorem nextInput_eq_none_iff (program : List HostInput) (r : State) :
    nextInput program r = none ↔ r.offered = none ∧ program.length ≤ r.issued := by
  cases hr : r.offered <;> simp [nextInput, hr]

/-- An offered input comes first, whatever the list. -/
@[simp] theorem nextInput_offered (program : List HostInput) (s : State) (e : HostInput) :
    nextInput program { s with offered := some e } = some (e, { s with offered := none }) := rfl

/-- With nothing offered the list gives the next input. -/
theorem nextInput_of_list {program : List HostInput} {r : State} {e : HostInput} (ho : r.offered = none)
    (he : program[r.issued]? = some e) : nextInput program r = some (e, { r with issued := r.issued + 1 }) := by
  simp [nextInput, ho, he]

/-- A step takes the next input whole (R217). -/
theorem stepWith_of_next {program : List HostInput} {r s : State} {e : HostInput} (h : nextInput program r = some (e, s)) :
    stepWith program r = accept e s := by
  simp [stepWith, h]

/-- Without a next input there is no step (R217). -/
theorem stepWith_of_none {program : List HostInput} {r : State} (h : nextInput program r = none) :
    stepWith program r = .fault .noTransaction := by
  simp [stepWith, h]

/-- The machine's step is the step relation at the host's list (R19). -/
theorem step_eq_stepWith : step = stepWith Config.hostProgram := rfl

end Sys2Proof.Machine
end

