-- ==== Sys2Proof/Laws/PerInstr.lean ====
section
/-! SUPPORT. Statements made once per constructor of Instr. -/

namespace Sys2Proof.Laws.LegalWord

/-- The command's word has both reserved fields zero and one of the ten opcodes (R94 items 1 and 2). -/
def Statement (i : Instr) : Prop :=
  rsv0Field (encode i) = 0#4 ∧ rsv1Field (encode i) = 0#40 ∧ (opField (encode i)).toNat ≤ 9

/-- The fields of a word laid out by R91. -/
theorem fields_commandWord (op : BitVec 8) (axis lvl : BitVec 2) (row : BitVec 8) :
    rsv0Field (commandWord op axis lvl row) = 0#4 ∧ rsv1Field (commandWord op axis lvl row) = 0#40 ∧
      opField (commandWord op axis lvl row) = op := by
  refine ⟨?_, ?_, ?_⟩ <;>
    ext i hi <;>
    simp only [rsv0Field, rsv1Field, opField, commandWord, BitVec.getElem_extractLsb', BitVec.getLsbD_append,
      BitVec.getLsbD_zero, BitVec.getElem_zero] <;>
    grind

theorem nop : Statement .nop := by unfold Statement; decide
theorem enc : Statement .enc := by unfold Statement; decide
theorem dec : Statement .dec := by unfold Statement; decide
theorem qnt : Statement .qnt := by unfold Statement; decide
theorem ilv : Statement .ilv := by unfold Statement; decide
theorem ext : Statement .ext := by unfold Statement; decide
theorem deq : Statement .deq := by unfold Statement; decide

theorem lutf (axis : Axis) (lvl : Level) (row : Chunk) : Statement (.lutf axis lvl row) := by
  obtain ⟨h0, h1, h2⟩ := fields_commandWord 0x07#8 (axisBits axis) (levelBits lvl) row
  exact ⟨h0, h1, by simp only [encode, h2]; decide⟩

theorem luti (axis : Axis) (lvl : Level) : Statement (.luti axis lvl) := by
  obtain ⟨h0, h1, h2⟩ := fields_commandWord 0x08#8 (axisBits axis) (levelBits lvl) 0#8
  exact ⟨h0, h1, by simp only [encode, h2]; decide⟩

theorem clr : Statement .clr := by unfold Statement; decide

end Sys2Proof.Laws.LegalWord
end

