-- ==== Sys2Proof/Tests/Slice0.lean ====
section
/-! SUPPORT. The model's own tests: well-formedness, decoding of words written out from the spec, one step on a small state
(expected values from spec/95_test_vectors.md, the vector named at each test), and a witness for the hypotheses of each
obligation. -/

namespace Sys2Proof.Tests

open Sys2Proof.Machine Sys2Proof.Safety

/-- The outcome is a next state with the property. -/
def nextIs (o : Host.Outcome State Fault Refusal) (p : State → Bool) : Bool :=
  match o with
  | .next t => p t
  | .fault _ => false
  | .refused _ => false

/-- The state before the table vectors T and L: ROMD = 0x77. -/
def romdState : State := { State.reset with romd := 0x77#64 }

/-- The state before vectors EN: coordinates given, KEY and the Q registers marked. -/
def encState (x y z : Word) : State :=
  { State.reset with x := x, y := y, z := z, key := 0xAAAAAAAAAAAAAAAA#64, qx := 0x777#21, qy := 0x777#21, qz := 0x777#21 }

/-- The state with a key and ROMD = 0x77. -/
def keyState (k : Word) : State := { romdState with key := k }

/-! Well-formedness: the one check, on both sides of its boundary, and levels it does not restrict. -/

theorem test_wellFormed_refuses_unpopulated_row : (Instr.lutf .x .one 0x20#8).wellFormed = false := by decide
theorem test_wellFormed_last_populated_row : (Instr.lutf .x .one 0x1F#8).wellFormed = true := by decide
theorem test_wellFormed_level_two_row : (Instr.lutf .z .two 0xFF#8).wellFormed = true := by decide
theorem test_decode_refuses_unpopulated_row : decode (encode (.lutf .x .one 0x20#8)) = .error .operandField := by decide

/-! Decoding: every command's word by R91 and R92, as RSV1, ROW, RSV0, LVL, AXIS, OP. -/

theorem test_decode_nop : decode (0#40 ++ 0#8 ++ 0#4 ++ 0b00#2 ++ 0b00#2 ++ 0b00000000#8) = .ok .nop := by decide
theorem test_decode_enc : decode (0#40 ++ 0#8 ++ 0#4 ++ 0b00#2 ++ 0b00#2 ++ 0b00000001#8) = .ok .enc := by decide
theorem test_decode_dec : decode (0#40 ++ 0#8 ++ 0#4 ++ 0b00#2 ++ 0b00#2 ++ 0b00000010#8) = .ok .dec := by decide
theorem test_decode_qnt : decode (0#40 ++ 0#8 ++ 0#4 ++ 0b00#2 ++ 0b00#2 ++ 0b00000011#8) = .ok .qnt := by decide
theorem test_decode_ilv : decode (0#40 ++ 0#8 ++ 0#4 ++ 0b00#2 ++ 0b00#2 ++ 0b00000100#8) = .ok .ilv := by decide
theorem test_decode_ext : decode (0#40 ++ 0#8 ++ 0#4 ++ 0b00#2 ++ 0b00#2 ++ 0b00000101#8) = .ok .ext := by decide
theorem test_decode_deq : decode (0#40 ++ 0#8 ++ 0#4 ++ 0b00#2 ++ 0b00#2 ++ 0b00000110#8) = .ok .deq := by decide
theorem test_decode_lutf : decode (0#40 ++ 0b10100101#8 ++ 0#4 ++ 0b10#2 ++ 0b01#2 ++ 0b00000111#8) =
    .ok (.lutf .y .two 0xA5#8) := by decide
theorem test_decode_luti : decode (0#40 ++ 0#8 ++ 0#4 ++ 0b01#2 ++ 0b10#2 ++ 0b00001000#8) = .ok (.luti .z .one) := by decide
theorem test_decode_clr : decode (0#40 ++ 0#8 ++ 0#4 ++ 0b00#2 ++ 0b00#2 ++ 0b00001001#8) = .ok .clr := by decide

/-- Vectors T11, T18, T30, T32: whole words. -/
theorem test_decode_table_words :
    decode 0x0000000000A50907#64 = .ok (.lutf .y .two 0xA5#8) ∧ decode 0x0000000000150607#64 = .ok (.lutf .z .one 0x15#8) ∧
      decode 0x0000000000000908#64 = .ok (.luti .y .two) ∧ decode 0x0000000000000608#64 = .ok (.luti .z .one) := by decide

/-- Vectors L4 to L11, L25: unassigned opcodes, operands where none belong, reserved bits. -/
theorem test_decode_illegal_plain :
    decode 0x000000000000000A#64 = .error .unassignedOp ∧ decode 0x00000000000000FF#64 = .error .unassignedOp ∧
      decode 0x0000000000000101#64 = .error .operandField ∧ decode 0x0000000000000401#64 = .error .operandField ∧
      decode 0x0000000000010001#64 = .error .operandField ∧ decode 0x0000000000001001#64 = .error .reservedBits ∧
      decode 0x0000000001000001#64 = .error .reservedBits ∧ decode 0x8000000000000001#64 = .error .reservedBits ∧
      decode 0x0000000100000000#64 = .error .reservedBits := by decide

/-- Vectors L12, L13, L15, L18, L20 to L22: bad operands of LUTF and LUTI. -/
theorem test_decode_illegal_tables :
    decode 0x0000000000000307#64 = .error .operandField ∧ decode 0x0000000000000007#64 = .error .operandField ∧
      decode 0x0000000000200407#64 = .error .operandField ∧ decode 0x0000000000FF0B07#64 = .error .operandField ∧
      decode 0x0000000000010408#64 = .error .operandField ∧ decode 0x0000000000000308#64 = .error .operandField ∧
      decode 0x0000000000000008#64 = .error .operandField := by decide

/-- The transaction words of program P1, lines 1 to 5: the macro `encode`. -/
theorem test_encodeMacro_words :
    encodeMacro 0x3FE0000000000000#64 0xBFE0000000000000#64 0x3FD0000000000000#64 =
      [0x103FE0000000000000#69, 0x11BFE0000000000000#69, 0x123FD0000000000000#69, 0x190000000000000001#69,
        0x030000000000000000#69].map fun w => .transaction (transactionOfWord w) := by decide

/-- The transaction words of program P2, lines 1 to 5: the macro `decode`. -/
theorem test_decodeMacro_words :
    decodeMacro 0x0123456789ABCDEF#64 =
      [0x130123456789ABCDEF#69, 0x190000000000000002#69, 0x000000000000000000#69, 0x010000000000000000#69,
        0x020000000000000000#69].map fun w => .transaction (transactionOfWord w) := by decide

/-! Functions. -/

/-- R129, rows 0x30 and 0xD8. -/
theorem test_spread_table : spread 0x35#8 = 0x009041#22 ∧ spread 0xDB#8 = 0x241209#22 := by decide

/-- R132: the row 0x3C of F[z][2] and the row 0x15 of F[y][1]. -/
theorem test_forward_samples : romForward .z .two 0x3C#8 = some 0x0000024900000000#63 ∧
    romForward .y .one 0x15#8 = some 0x2082000000000000#63 ∧ romForward .y .one 0x20#8 = none := by decide

/-- Vectors Q14, Q17, Q20, Q26: just below a tie, where step-by-step evaluation would differ. -/
theorem test_quantRaw_below_ties : quantRaw 0x3FEFFFFEFFFFFFFF#64 = 0x1FFFFF ∧ quantRaw 0x3FE00000FFFFFFFF#64 = 0x180000 ∧
    quantRaw 0xBFEFFFFF00000001#64 = 0 ∧ quantRaw 0xBEA0000000000001#64 = 0x0FFFFF := by decide

/-- Vectors Q28, Q29: the least subnormal and the largest negative one. -/
theorem test_quantRaw_subnormals : quantRaw 0x0000000000000001#64 = 0x100000 ∧ quantRaw 0x800FFFFFFFFFFFFF#64 = 0x100000 := by
  decide

/-- Vectors Q33, Q34, Q38, Q41: above 1.0, below -1.0, infinity, NaN. -/
theorem test_validCoord_refuses : validCoord 0x3FF0000000000001#64 = false ∧ validCoord 0xBFF0000000000001#64 = false ∧
    validCoord 0x7FF0000000000000#64 = false ∧ validCoord 0x7FF8000000000000#64 = false := by decide

/-- Vectors D6, D8, D12. -/
theorem test_dequant : dequant 0x0AAAAA#21 = 0xBFD5555800000000#64 ∧ dequant 0x0FFFFF#21 = 0xBEB0000000000000#64 ∧
    dequant 0x100003#21 = 0x3EC8000000000000#64 := by decide

/-! Commands, one step each. -/

/-- Vector L1. -/
theorem test_nop : nextIs (execNop romdState) (· = romdState) = true := by decide

/-- R216's example: STATUS = 0x13. -/
theorem test_clr : nextIs (execClr { romdState with status := 0x13#5 }) (· = romdState) = true := by decide

/-- R160's example. -/
theorem test_qnt : nextIs (execQnt (encState 0x3FE0000000000000#64 0xBFE0000000000000#64 0x3FD0000000000000#64))
    (fun t => t.qx = 0x180000#21 && t.qy = 0x080000#21 && t.qz = 0x140000#21 && t.status = 0#5) = true := by decide

/-- Vector Q12: 1.0 clamps with SAT. -/
theorem test_qnt_sat : nextIs (execQnt (encState 0x3FF0000000000000#64 0#64 0#64))
    (fun t => t.qx = 0x1FFFFF#21 && t.qy = 0x100000#21 && t.status = 0x10#5) = true := by decide

/-- Vector I25. -/
theorem test_ilv : nextIs (execIlv { State.reset with qx := 0x11999A#21, qy := 0x155555#21, qz := 0x0AAAAB#21 })
    (fun t => t.key = 0x38A3AA3AA3AA3AAE#64) = true := by decide

/-- Vector I14, from a key with bit 63 set: ILV writes it 0. -/
theorem test_ilv_clears_bit63 :
    nextIs (execIlv { State.reset with qx := 0xFF#21, qy := 0xFF#21, qz := 0xFF#21, key := 0xFFFFFFFFFFFFFFFF#64 })
      (fun t => t.key = 0x0000000000FFFFFF#64) = true := by decide

/-- Vector EN6: a tie, a value below a tie, a clamp. -/
theorem test_enc : nextIs (execEnc (encState 0xBFEFFFFF00000000#64 0xBFEFFFFF80000000#64 0x3FEFFFFF00000000#64))
    (fun t => t.qx = 1#21 && t.qy = 0#21 && t.qz = 0x1FFFFF#21 && t.key = 0x4924924924924925#64 && t.status = 0x10#5) =
      true := by decide

/-- Vector EN15: a clamping and an invalid coordinate; only RANGE, nothing written. -/
theorem test_enc_range : nextIs (execEnc (encState 0x3FF0000000000000#64 0x3FF0000000000001#64 0#64))
    (· = { encState 0x3FF0000000000000#64 0x3FF0000000000001#64 0#64 with status := 0x01#5 }) = true := by decide

/-- Vector I24. -/
theorem test_ext : nextIs (execExt (keyState 0x0123456789ABCDEF#64))
    (fun t => t.qx = 0x014BA7#21 && t.qy = 0x01BC6D#21 && t.qz = 0x0614BF#21 && t.status = 0#5) = true := by decide +kernel

/-- Vector E4: bit 63 is ignored, reported and kept. -/
theorem test_ext_key63 : nextIs (execExt (keyState 0xD700000000000000#64))
    (fun t => t.qx = 0x180000#21 && t.qy = 0x080000#21 && t.qz = 0x140000#21 && t.status = 0x08#5 &&
      t.key = 0xD700000000000000#64) = true := by decide +kernel

/-- R192's example. -/
theorem test_deq : nextIs (execDeq { State.reset with qx := 0x180000#21, qy := 0x080000#21, qz := 0x140000#21 })
    (fun t => t.x = 0x3FE0000000000000#64 && t.y = 0xBFE0000000000000#64 && t.z = 0x3FD0000000000000#64) = true := by decide

/-- Vector DE7. -/
theorem test_dec : nextIs (execDec (keyState 0x0123456789ABCDEF#64))
    (fun t => t.x = 0xBFED68B200000000#64 && t.y = 0xBFEC872600000000#64 && t.z = 0xBFE3D68200000000#64 &&
      t.qx = 0x014BA7#21) = true := by decide +kernel

/-- Vector T18. -/
theorem test_lutf : nextIs (execLutf .z .one 0x15#8 romdState) (fun t => t.romd = 0x4104000000000000#64) = true := by decide

/-- Vector T19's state: an unpopulated row raises ILL and leaves ROMD. -/
theorem test_lutf_unpopulated : nextIs (execLutf .x .one 0x20#8 romdState) (· = { romdState with status := 0x02#5 }) = true := by
  decide

/-- Vector T30. -/
theorem test_luti : nextIs (execLuti .y .two (keyState 0x0000410082000000#64))
    (fun t => t.romd = 0xA5#64 && t.status = 0#5) = true := by decide +kernel

/-- Vector T37: a miss with bit 63 set raises both flags and leaves ROMD. -/
theorem test_luti_miss_key63 : nextIs (execLuti .x .three (keyState 0x8000000000000002#64))
    (· = { keyState 0x8000000000000002#64 with status := 0x0C#5 }) = true := by decide +kernel

/-! Transactions and the step. -/

/-- Vector H3: a read of an unmapped index. -/
theorem test_rd_unmapped : nextIs (step { State.reset with offered := some (.transaction (transactionOfWord 0x0A0000000000000000#69)) })
    (fun t => t.observed = [0#64] && t.status = 0x02#5) = true := by decide

/-- Vector H6: a Q register keeps 21 bits. -/
theorem test_wr_truncates : nextIs (step { State.reset with offered := some (.transaction (transactionOfWord 0x15FFFFFFFFFFE00001#69)) })
    (fun t => t.qy = 1#21 && t.status = 0#5 && t.offered = none) = true := by decide

/-- Vectors H7, H8: writes to ROMD and STATUS. -/
theorem test_wr_read_only :
    nextIs (step { State.reset with offered := some (.transaction (transactionOfWord 0x170000000000000001#69)) })
      (fun t => t.romd = 0#64 && t.status = 0x02#5) = true ∧
    nextIs (step { State.reset with offered := some (.transaction (transactionOfWord 0x180000000000000000#69)) })
      (fun t => t.status = 0x02#5) = true := by decide

/-- P5 line 12: STATUS read back. -/
theorem test_rd_status : nextIs (step { State.reset with status := 0x02#5, offered := some (.transaction (.rd 8#4)) })
    (fun t => t.observed = [2#64] && t.status = 0x02#5) = true := by decide

/-- R260: the reset input. -/
theorem test_reset_input : nextIs (step { keyState 5#64 with status := 0x1F#5, offered := some .reset })
    (· = State.reset) = true := by decide

/-- The first step after reset runs the placed command word. -/
theorem test_withFetchWord : decodeTableWord 64 0x150607 = some (.lutf .z .one 0x15#8) ∧
    nextIs (step (State.reset.withFetchWord 64 0x150607)) (fun t => t.romd = 0x4104000000000000#64 && t.offered = none) = true := by
  decide

/-! Witnesses for the obligations' hypotheses, each clause at a boundary of its range. -/

theorem witness_DecodeInvertsEncode :
    (Instr.lutf .z .one 0x1F#8).wellFormed = true ∧ (Instr.lutf .x .three 0xFF#8).wellFormed = true ∧
      (Instr.luti .z .one).wellFormed = true ∧ Instr.enc.wellFormed = true := by decide

theorem witness_DecodedWordIsTheEncoding :
    decode 0x00000000001F0607#64 = .ok (.lutf .z .one 0x1F#8) ∧ decode 0x0000000000000009#64 = .ok .clr := by decide

theorem witness_LegalWordsAreThe1649 :
    LegalCommandWord 0x00000000001F0607#64 ∧ LegalCommandWord 0x0000000000000A08#64 ∧ LegalCommandWord 0x0000000000000009#64 := by
  unfold LegalCommandWord
  refine ⟨?_, ?_, ?_⟩ <;> decide

theorem witness_TransactionWordLayout : (0x0F0000000000000001#69).getLsbD 68 = false := by decide

theorem witness_StepRunsDecodedCommand : decode 0x0000000000FF0E07#64 = .ok (.lutf .z .three 0xFF#8) := by decide

theorem witness_IllegalWordRaisesOnlyIll :
    ¬ LegalCommandWord 0x0000000000200407#64 ∧ ¬ LegalCommandWord 0x000000000000000A#64 ∧
      ¬ LegalCommandWord 0x0000000000001001#64 ∧ ¬ LegalCommandWord 0x0000000000010408#64 := by
  unfold LegalCommandWord
  refine ⟨?_, ?_, ?_, ?_⟩ <;> decide

theorem witness_unmapped_indices : 10 ≤ (10#4 : RegIdx).toNat ∧ 10 ≤ (15#4 : RegIdx).toNat := by decide

theorem witness_EveryInputIsOneStep :
    isRead (.transaction (.rd 15#4)) = true ∧ isRead (.transaction (.wr 9#4 0#64)) = false ∧ isRead .reset = false := by decide

/-- The next input is the offered one, or else the list's: for every statement about a next input (`After` among them). -/
theorem witness_nextInput :
    nextInput [.reset, .transaction (.rd 3#4)] { State.reset with issued := 1 } =
      some (.transaction (.rd 3#4), { State.reset with issued := 2 }) ∧
    nextInput [] { State.reset with offered := some (.transaction (.wr 9#4 9#64)) } =
      some (.transaction (.wr 9#4 9#64), State.reset) ∧
    nextInput [.reset] State.reset = some (.reset, { State.reset with issued := 1 }) ∧
    nextInput [.reset] { State.reset with issued := 1 } = none := by decide

theorem witness_NoInputNoStep :
    State.reset.issued < [HostInput.reset].length ∧ { State.reset with offered := some .reset }.offered ≠ none ∧
      ¬ State.reset.issued < ([] : List HostInput).length := by decide

theorem witness_StepSeesOnlyTheNextInput :
    [HostInput.reset, .reset][State.reset.issued]? = [HostInput.reset][State.reset.issued]? ∧
      [HostInput.reset, .reset] ≠ [HostInput.reset] := by decide

/-- One step of a run from reset over a given list; P2's first line. -/
theorem test_run_from_reset :
    nextIs ((coreWith [.transaction (.wr 3#4 0x0123456789ABCDEF#64)]).run 1 State.reset)
      (fun t => t.key = 0x0123456789ABCDEF#64 && t.issued = 1) = true := by decide

theorem witness_ForwardWordBits :
    populated .one 31#8 = true ∧ populated .one 32#8 = false ∧ populated .two 255#8 = true ∧ populated .three 255#8 = true := by
  decide

theorem witness_MasksPartitionTheKey : (Axis.x, Level.one) ≠ (Axis.y, Level.one) ∧ (keyMask .z .one).getLsbD 62 = true := by
  decide

theorem witness_InverseTables :
    romInverse .z .one 0x4924000000000000#63 = some 0x1F#8 ∧ romInverse .y .one 0x4924000000000000#63 = none ∧
      forwardWord .z .one 0x1F#8 = 0x4924000000000000#63 ∧ 0x4924000000000000#63 &&& ~~~ keyMask .z .one = 0#63 := by
  decide +kernel

/-- The values of the patterns used below, by R84. -/
theorem coordValue_samples :
    coordValue 0x3FF0000000000000#64 = some 1 ∧ coordValue 0xBFF0000000000000#64 = some (-1) ∧
      coordValue 0x0000000000000000#64 = some 0 ∧ coordValue 0x3FEFFFFF00000000#64 = some (1 - 1 / 2 ^ 21) ∧
      coordValue 0x3FEFFFFE00000000#64 = some (1 - 1 / 2 ^ 20) ∧
      coordValue 0xBFEFFFFF00000000#64 = some (-1 + 1 / 2 ^ 21) ∧ coordValue 0x3FF8000000000000#64 = some (3 / 2) ∧
      coordValue 0x7FF0000000000000#64 = none := by decide +kernel

theorem witness_ValidCoordIsTheUnitInterval : InUnitInterval 0x3FF0000000000000#64 ∧ InUnitInterval 0xBFF0000000000000#64 :=
  ⟨⟨1, coordValue_samples.1, by norm_num, by norm_num⟩, ⟨-1, coordValue_samples.2.1, by norm_num, by norm_num⟩⟩

theorem witness_QuantizerIsTheExactFloor :
    validCoord 0x3FF0000000000000#64 = true ∧ coordValue 0x3FF0000000000000#64 = some 1 :=
  ⟨by decide, coordValue_samples.1⟩

/-- The reset state meets the encoder's precondition, and nothing clamps: the same obligations. -/
theorem witness_AllInUnitInterval_reset : AllInUnitInterval State.reset ∧ ¬ SomeClamps State.reset := by
  have zero (a : Axis) : coordValue (coordReg a State.reset) = some 0 := by cases a <;> exact coordValue_samples.2.2.1
  refine ⟨fun a => ⟨0, zero a, by norm_num, by norm_num⟩, ?_⟩
  rintro ⟨a, v, hv, h⟩
  rw [zero a, Option.some.injEq] at hv
  subst hv
  norm_num at h

/-- The state with X = 1.0 meets it, and X clamps: ClampAtTheTop, QntStoresTheExactFloors,
EncIsQntThenIlv, EncStoresFloorsAndKey, EncodeThenDecodeErrorBound. -/
theorem witness_SomeClamps :
    AllInUnitInterval { State.reset with x := 0x3FF0000000000000#64 } ∧ SomeClamps { State.reset with x := 0x3FF0000000000000#64 } := by
  refine ⟨fun a => ?_, .x, 1, coordValue_samples.1, by norm_num⟩
  cases a
  · exact ⟨1, coordValue_samples.1, by norm_num, by norm_num⟩
  · exact ⟨0, coordValue_samples.2.2.1, by norm_num, by norm_num⟩
  · exact ⟨0, coordValue_samples.2.2.1, by norm_num, by norm_num⟩

/-- The state with X = 1.5 does not meet it: the RANGE clauses of QNT and ENC. -/
theorem witness_not_AllInUnitInterval : ¬ AllInUnitInterval { State.reset with x := 0x3FF8000000000000#64 } := by
  intro h
  obtain ⟨v, hv, _, h1⟩ := h .x
  have e : coordValue 0x3FF8000000000000#64 = some (3 / 2) := coordValue_samples.2.2.2.2.2.2.1
  rw [show coordReg .x { State.reset with x := 0x3FF8000000000000#64 } = 0x3FF8000000000000#64 from rfl, e,
    Option.some.injEq] at hv
  subst hv
  norm_num at h1

theorem witness_ClampAtTheTop :
    0x3FEFFFFF00000000#64 ≤ 0x3FEFFFFF00000000#64 ∧ quantRaw 0x3FEFFFFF00000000#64 = 2 ^ 21 ∧
      quantRaw 0x3FF0000000000000#64 = 2 ^ 21 ∧ quantRaw 0x3FEFFFFEFFFFFFFF#64 ≠ 2 ^ 21 := by decide

/-- R155's cases: a subnormal; 0.0 as the grid point n = 2^20; -1 + 2^-21 as the tie of n = 0; a value below and one at
1 - 2^-21, in order. -/
theorem witness_QuantizerProperties :
    expField 0x800FFFFFFFFFFFFF#64 = 0 ∧ |(0 : ℚ)| < 1 / 2 ^ 21 ∧ (0 : ℚ) = ((2 ^ 20 : Nat) : ℚ) / 2 ^ 20 - 1 ∧
      (-1 + 1 / 2 ^ 21 : ℚ) = (((0 : Nat) : ℚ) + 1 / 2) / 2 ^ 20 - 1 ∧ (1 - 1 / 2 ^ 20 : ℚ) < 1 - 1 / 2 ^ 21 ∧
      (1 - 1 / 2 ^ 20 : ℚ) ≤ 1 - 1 / 2 ^ 21 ∧ validCoord 0xBFEFFFFF00000000#64 = true ∧
      validCoord 0x3FEFFFFE00000000#64 = true ∧ validCoord 0x3FEFFFFF00000000#64 = true ∧
      validCoord 0x0000000000000000#64 = true := by
  refine ⟨by decide, by norm_num, by norm_num, by norm_num, by norm_num, by norm_num, by decide, by decide, by decide, by decide⟩

theorem witness_Dequant : (0x0FFFFF#21 : QInt) < 0x100000#21 ∧ (0x0FFFFF#21 : QInt) ≠ 0x100000#21 := by decide

theorem witness_NopChangesNothing :
    (0x0000000000000100#64).extractLsb' 0 8 = 0#8 ∧ (0x0000000000000100#64) ≠ 0#64 := by decide

theorem witness_InvalidCoordinateRaisesRange :
    validCoord (coordReg .z { State.reset with z := 0x3FF0000000000001#64 }) = false ∧
      validCoord (coordReg .y { State.reset with y := 0x7FF0000000000000#64 }) = false := by decide

theorem witness_LutfReadsTheForwardWord : (Instr.lutf .y .one 0x1F#8).wellFormed = true := by decide

theorem witness_UnpopulatedLutfTermRaisesIll : 31 < (0x20#8 : Chunk).toNat ∧ 31 < (0xFF#8 : Chunk).toNat := by decide

theorem witness_LutiHitsExactlyInsideTheMask :
    (keyState 0xC924000000000000#64).key.extractLsb' 0 63 &&& ~~~ keyMask .z .one = 0#63 ∧
      (keyState 0x4924000000000001#64).key.extractLsb' 0 63 &&& ~~~ keyMask .z .one ≠ 0#63 := by decide +kernel

theorem witness_FlagsAreSticky :
    clearsFlags (.transaction (.wr 9#4 9#64)) = true ∧ clearsFlags .reset = true ∧
      clearsFlags (.transaction (.wr 9#4 0#64)) = false ∧ clearsFlags (.transaction (.wr 8#4 9#64)) = false ∧
      hasFlag .sat (0x10#5) = true ∧
      nextInput [.transaction (.wr 9#4 0#64)] { State.reset with status := 0x10#5 } =
        some (.transaction (.wr 9#4 0#64), { State.reset with status := 0x10#5, issued := 1 }) ∧
      stepWith [.transaction (.wr 9#4 0#64)] { State.reset with status := 0x10#5 } =
        .next { State.reset with status := 0x10#5, issued := 1 } :=
  ⟨by decide, by decide, by decide, by decide, by decide, rfl, rfl⟩

theorem witness_StatusNeverAltersACommand : Instr.nop ≠ .clr ∧ Instr.enc ≠ .clr := by decide

/-- FlagsRaisedTogether and FaultsArePrecise: a read of index 10 from the reset state raises ILL. -/
theorem witness_FaultsArePrecise :
    flagIsFault .ill = true ∧ State.reset.status = 0#5 ∧ hasFlag .ill State.reset.status = false ∧
      nextInput [.transaction (.rd 10#4)] State.reset = some (.transaction (.rd 10#4), { State.reset with issued := 1 }) ∧
      stepWith [.transaction (.rd 10#4)] State.reset =
        .next { State.reset with issued := 1, observed := [0#64], status := 0x02#5 } ∧
      hasFlag .ill ({ State.reset with issued := 1, observed := [0#64], status := 0x02#5 } : State).status = true :=
  ⟨rfl, rfl, rfl, rfl, rfl, rfl⟩

theorem witness_CommandsWriteOnlyTheirRegisters :
    exec .nop State.reset = .next State.reset ∧ RegName.romd ∉ commandWrites .dec ∧ RegName.romd ≠ .status :=
  ⟨rfl, by decide, by decide⟩

/-- Two different states that agree on what ENC reads. -/
theorem witness_CommandsReadOnlyTheirRegisters :
    (∀ r ∈ commandReads .enc, readReg r (keyState 7#64) = readReg r State.reset) ∧ keyState 7#64 ≠ State.reset := by decide

theorem witness_RepeatedCommandChangesNothingMore :
    exec .clr { State.reset with status := 0x1F#5 } = .next State.reset ∧ RegName.key ∈ commandReads .ext :=
  ⟨rfl, by decide⟩

theorem witness_CleanEncIsWithinHalfAStep :
    nextIs (exec .enc State.reset) (fun t => hasFlag .range t.status = false && hasFlag .sat t.status = false) = true := by
  decide

theorem witness_CleanStatusProvesACleanRun :
    (∀ k e, k < 1 → [HostInput.transaction (.wr 0#4 5#64)][State.reset.issued + k]? = some e → clearsFlags e = false) ∧
      (∀ e, State.reset.offered = some e → clearsFlags e = false) ∧
      (coreWith [.transaction (.wr 0#4 5#64)]).run 1 State.reset = .next ({ State.reset with x := 5#64, issued := 1 } : State) ∧
      CleanStatus { State.reset with x := 5#64, issued := 1 } := by
  refine ⟨?_, by simp [State.reset], rfl, rfl⟩
  intro k e hk he
  obtain rfl : k = 0 := by omega
  obtain rfl : HostInput.transaction (.wr 0#4 5#64) = e := by simpa [State.reset] using he
  decide

/-- RomdStaysATableRead: a state with a forward word in ROMD, and a step from it. -/
theorem witness_RomdStaysATableRead :
    RomdIsTableRead { State.reset with romd := 0x4924000000000000#64, offered := some .reset } ∧
      step { State.reset with romd := 0x4924000000000000#64, offered := some .reset } = .next State.reset :=
  ⟨.inl ⟨.z, .one, 0x1F#8, by decide, by decide⟩, rfl⟩

end Sys2Proof.Tests
end

/-! PROOFS. The scope of the model (spec/00_scope.md R19; spec/43_system.md R217): a run folds the block's step over the host's
list. The idea: no input reads or changes the host's place in its list, so a run of the machine and a fold over the list differ
in that place alone. -/

namespace Sys2Proof.Machine

/-! The host's place, and the operations that leave it alone. -/

/-- The state with the host at another place: `n` inputs of its list taken, and `o` offered ahead of it. -/
def atPlace (n : Nat) (o : Option HostInput) (s : State) : State := { s with issued := n, offered := o }

section
variable (n : Nat) (o : Option HostInput) (s : State)

@[simp] theorem atPlace_x : (atPlace n o s).x = s.x := rfl
@[simp] theorem atPlace_y : (atPlace n o s).y = s.y := rfl
@[simp] theorem atPlace_z : (atPlace n o s).z = s.z := rfl

@[simp] theorem quantizeRegs_atPlace : quantizeRegs (atPlace n o s) = atPlace n o (quantizeRegs s) := rfl
@[simp] theorem coordsValid_atPlace : coordsValid (atPlace n o s) = coordsValid s := rfl
@[simp] theorem anySat_atPlace : anySat (atPlace n o s) = anySat s := rfl
@[simp] theorem keyOperand_atPlace : keyOperand (atPlace n o s) = keyOperand s := rfl
@[simp] theorem key63_atPlace : key63 (atPlace n o s) = key63 s := rfl

@[simp] theorem readReg_atPlace (r : RegName) : readReg r (atPlace n o s) = readReg r s := by cases r <;> rfl

@[simp] theorem raise_atPlace (f : Flag) : raise f (atPlace n o s) = atPlace n o (raise f s) := rfl

@[simp] theorem noticeWhen_atPlace (c : Bool) (f : Flag) :
    noticeWhen c f (atPlace n o s) = atPlace n o (noticeWhen c f s) := by cases c <;> rfl

@[simp] theorem writeCoords_atPlace (x y z : Word) :
    writeCoords x y z (atPlace n o s) = atPlace n o (writeCoords x y z s) := rfl

@[simp] theorem writeKey_atPlace (k : KeyWord) : writeKey k (atPlace n o s) = atPlace n o (writeKey k s) := rfl
@[simp] theorem writeRomd_atPlace (v : Word) : writeRomd v (atPlace n o s) = atPlace n o (writeRomd v s) := rfl
@[simp] theorem observe_atPlace (v : Word) : observe v (atPlace n o s) = atPlace n o (observe v s) := rfl
@[simp] theorem extractRegs_atPlace (k : KeyWord) :
    extractRegs k (atPlace n o s) = atPlace n o (extractRegs k s) := rfl

end

/-- The operation answers a next state from every state, and the host's place has no part in it: it is neither read nor
changed. -/
def IgnoresPlace (f : State → Host.Outcome State Fault Refusal) : Prop :=
  ∀ s, ∃ t, ∀ n o, f (atPlace n o s) = .next (atPlace n o t)

theorem takeFault_ignoresPlace (f : Flag) : IgnoresPlace (takeFault f) := fun s => ⟨raise f s, fun _ _ => rfl⟩

/-! The commands. -/

theorem execQnt_ignoresPlace : IgnoresPlace execQnt := by
  intro s
  cases h : coordsValid s with
  | true => exact ⟨noticeWhen (anySat s) .sat (quantizeRegs s), fun n o => by simp [execQnt, h]⟩
  | false => exact ⟨raise .range s, fun n o => by simp [execQnt, h]⟩

theorem execEnc_ignoresPlace : IgnoresPlace execEnc := by
  intro s
  cases h : coordsValid s with
  | true => exact ⟨noticeWhen (anySat s) .sat
      (writeKey (interleave (quantize s.x) (quantize s.y) (quantize s.z)) (quantizeRegs s)), fun n o => by
        simp [execEnc, h]⟩
  | false => exact ⟨raise .range s, fun n o => by simp [execEnc, h]⟩

theorem execExt_ignoresPlace : IgnoresPlace execExt := fun s =>
  ⟨extractRegs (keyOperand s) (noticeWhen (key63 s) .key63 s), fun n o => by simp [execExt]⟩

theorem execDec_ignoresPlace : IgnoresPlace execDec := fun s =>
  ⟨writeCoords (dequant (extractAxis .x (keyOperand s))) (dequant (extractAxis .y (keyOperand s)))
    (dequant (extractAxis .z (keyOperand s))) (extractRegs (keyOperand s) (noticeWhen (key63 s) .key63 s)),
    fun n o => by simp [execDec]⟩

theorem execLutf_ignoresPlace (a : Axis) (l : Level) (row : Chunk) : IgnoresPlace (execLutf a l row) := by
  intro s
  cases h : romForward a l row with
  | some w => exact ⟨writeRomd (w.setWidth 64) s, fun n o => by simp [execLutf, h]⟩
  | none => exact ⟨raise .ill s, fun n o => by simp [execLutf, h]⟩

theorem execLuti_ignoresPlace (a : Axis) (l : Level) : IgnoresPlace (execLuti a l) := by
  intro s
  cases h : romInverse a l (keyOperand s) with
  | some c => exact ⟨writeRomd (c.setWidth 64) (noticeWhen (key63 s) .key63 s), fun n o => by simp [execLuti, h]⟩
  | none => exact ⟨raise .miss (noticeWhen (key63 s) .key63 s), fun n o => by simp [execLuti, h]⟩

/-- No command reads or changes the host's place, and each answers a next state. -/
theorem exec_ignoresPlace (i : Instr) : IgnoresPlace (exec i) := by
  cases i with
  | nop => exact fun s => ⟨s, fun _ _ => rfl⟩
  | enc => exact execEnc_ignoresPlace
  | dec => exact execDec_ignoresPlace
  | qnt => exact execQnt_ignoresPlace
  | ilv => exact fun s => ⟨writeKey (interleave s.qx s.qy s.qz) s, fun _ _ => rfl⟩
  | ext => exact execExt_ignoresPlace
  | deq => exact fun s => ⟨writeCoords (dequant s.qx) (dequant s.qy) (dequant s.qz) s, fun _ _ => rfl⟩
  | lutf a l row => exact execLutf_ignoresPlace a l row
  | luti a l => exact execLuti_ignoresPlace a l
  | clr => exact fun s => ⟨clearFlags s, fun _ _ => rfl⟩

/-! The host's inputs. -/

theorem runCommand_ignoresPlace (w : Word) : IgnoresPlace (runCommand w) := by
  cases h : decode w with
  | ok i => simpa [IgnoresPlace, runCommand, h] using exec_ignoresPlace i
  | error e => simpa [IgnoresPlace, runCommand, h] using takeFault_ignoresPlace .ill

theorem hostRead_ignoresPlace (idx : RegIdx) : IgnoresPlace (hostRead idx) := by
  intro s
  cases h : regAt idx with
  | some r => exact ⟨observe (readReg r s) s, fun n o => by simp [hostRead, h]⟩
  | none => exact ⟨raise .ill (observe 0#64 s), fun n o => by simp [hostRead, h]⟩

theorem hostWrite_ignoresPlace (idx : RegIdx) (w : Word) : IgnoresPlace (hostWrite idx w) := by
  cases h : regAt idx with
  | none => simpa [IgnoresPlace, hostWrite, h] using takeFault_ignoresPlace .ill
  | some r =>
    cases r with
    | x => exact fun s => ⟨{ s with x := w }, fun n o => by simp [hostWrite, h, atPlace]⟩
    | y => exact fun s => ⟨{ s with y := w }, fun n o => by simp [hostWrite, h, atPlace]⟩
    | z => exact fun s => ⟨{ s with z := w }, fun n o => by simp [hostWrite, h, atPlace]⟩
    | key => exact fun s => ⟨{ s with key := w }, fun n o => by simp [hostWrite, h, atPlace]⟩
    | qx => exact fun s => ⟨{ s with qx := w.extractLsb' 0 21 }, fun n o => by simp [hostWrite, h, atPlace]⟩
    | qy => exact fun s => ⟨{ s with qy := w.extractLsb' 0 21 }, fun n o => by simp [hostWrite, h, atPlace]⟩
    | qz => exact fun s => ⟨{ s with qz := w.extractLsb' 0 21 }, fun n o => by simp [hostWrite, h, atPlace]⟩
    | romd => simpa [IgnoresPlace, hostWrite, h] using takeFault_ignoresPlace .ill
    | status => simpa [IgnoresPlace, hostWrite, h] using takeFault_ignoresPlace .ill
    | cmd => simpa [IgnoresPlace, hostWrite, h] using runCommand_ignoresPlace w

/-- The block takes every input from every state, whatever the host's place (R217). -/
theorem accept_ignoresPlace (e : HostInput) : IgnoresPlace (accept e) := by
  cases e with
  | reset => exact fun s => ⟨hostReset s, fun _ _ => rfl⟩
  | transaction t =>
    cases t with
    | rd idx => exact hostRead_ignoresPlace idx
    | wr idx w => exact hostWrite_ignoresPlace idx w

/-! The step and the host's list. -/

/-- The list has an effect on the next input only through its entry at the state's place. -/
theorem nextInput_congr {p p' : List HostInput} {s : State} (h : p[s.issued]? = p'[s.issued]?) :
    nextInput p s = nextInput p' s := by
  simp only [nextInput, h]

/-- At place k of the list, with nothing offered, the step is the block taking the list's input at k (R217). -/
theorem stepWith_atPlace {program : List HostInput} {k : Nat} (hk : k < program.length) (s : State) :
    stepWith program (atPlace k none s) = accept program[k] (atPlace (k + 1) none s) :=
  stepWith_of_next (nextInput_of_list rfl (List.getElem?_eq_getElem hk))

/-- At the end of the list, with nothing offered, there is no step (R217). -/
theorem stepWith_atPlace_length (program : List HostInput) (s : State) :
    stepWith program (atPlace program.length none s) = .fault .noTransaction :=
  stepWith_of_none ((nextInput_eq_none_iff _ _).mpr ⟨rfl, le_rfl⟩)

end Sys2Proof.Machine

namespace Sys2Proof.Safety

open Sys2Proof.Machine

/-- A run that begins with the steps to t goes on as a run from t. -/
theorem run_add_of_next {M : Host.Core} {m : Nat} {s t : M.State} (h : M.run m s = .next t) (j : Nat) :
    M.run (m + j) s = M.run j t := by
  induction m generalizing s with
  | zero =>
    obtain rfl : s = t := by simpa [Host.Core.run] using h
    rw [Nat.zero_add]
  | succ m ih =>
    rw [Nat.add_right_comm]
    simp only [Host.Core.run] at h ⊢
    cases hs : M.step s with
    | next u => exact ih (by simpa [hs] using h)
    | fault r => simp [hs] at h
    | refused r => simp [hs] at h

theorem run_succ_of_step {M : Host.Core} {s t : M.State} (h : M.step s = .next t) (n : Nat) :
    M.run (n + 1) s = M.run n t := by
  simp only [Host.Core.run, h]

theorem hostRun_cons_of_accept {e : HostInput} {s t : State} (h : accept e s = .next t) (es : List HostInput) :
    hostRun (e :: es) s = hostRun es t := by
  simp only [hostRun, h]

/-- The fold over a list answers a next state, whatever the host's place. -/
theorem hostRun_ignoresPlace (es : List HostInput) : IgnoresPlace (hostRun es) := by
  induction es with
  | nil => exact fun s => ⟨s, fun _ _ => rfl⟩
  | cons e es ih =>
    intro s
    obtain ⟨t, ht⟩ := accept_ignoresPlace e s
    obtain ⟨u, hu⟩ := ih t
    exact ⟨u, fun n o => (hostRun_cons_of_accept (ht n o) es).trans (hu n o)⟩

/-- The run of n steps from place k folds the block over the n inputs from there, and ends at place k + n. -/
theorem run_atPlace (program : List HostInput) {n k : Nat} (h : k + n ≤ program.length) (s : State) :
    (coreWith program).run n (atPlace k none s) =
      hostRun ((program.drop k).take n) (atPlace (k + n) none s) := by
  induction n generalizing k s with
  | zero => rfl
  | succ n ih =>
    have hk : k < program.length := by omega
    obtain ⟨t, ht⟩ := accept_ignoresPlace program[k] s
    have hstep : stepWith program (atPlace k none s) = .next (atPlace (k + 1) none t) :=
      (stepWith_atPlace hk s).trans (ht _ _)
    have hfold : hostRun ((program.drop k).take (n + 1)) (atPlace (k + (n + 1)) none s) =
        hostRun ((program.drop (k + 1)).take n) (atPlace (k + 1 + n) none t) := by
      rw [List.drop_eq_getElem_cons hk, List.take_succ_cons, hostRun_cons_of_accept (ht _ _),
        Nat.add_right_comm, Nat.add_assoc]
    exact (run_succ_of_step (M := coreWith program) hstep n).trans ((ih (by omega) t).trans hfold.symm)

/-- From reset: the fold over the first n inputs, at place n. -/
theorem run_reset (program : List HostInput) {n : Nat} (h : n ≤ program.length) :
    (coreWith program).run n State.reset = hostRun (program.take n) (atPlace n none State.reset) := by
  have hrun := run_atPlace program (k := 0) (n := n) (by omega) State.reset
  rwa [Nat.zero_add] at hrun

/-- A run longer than the list ends in the fault that stands for "no step without a transaction" (R217). -/
theorem run_reset_past_end (program : List HostInput) {n : Nat} (h : program.length < n) :
    (coreWith program).run n State.reset = .fault .noTransaction := by
  obtain ⟨t, ht⟩ := hostRun_ignoresPlace (program.take program.length) State.reset
  have hrun : (coreWith program).run program.length State.reset = .next (atPlace program.length none t) :=
    (run_reset program le_rfl).trans (ht _ _)
  obtain ⟨j, rfl⟩ : ∃ j, n = program.length + (j + 1) := ⟨n - program.length - 1, by omega⟩
  have hstop : (coreWith program).step (atPlace program.length none t) = .fault .noTransaction :=
    stepWith_atPlace_length program t
  rw [run_add_of_next hrun]
  simp only [Host.Core.run, hstop]

end Sys2Proof.Safety

namespace Sys2Proof

open Sys2Proof.Machine Sys2Proof.Safety

/-- Settles O13: the step sees the list only through the next input. -/
theorem stepSeesOnlyTheNextInput : Obligations.StepSeesOnlyTheNextInput := by
  intro p p' s h
  simp only [stepWith, nextInput_congr h]

/-- Settles O12, by induction on the number of steps: the run and the fold agree, since no input reads or changes the
host's place. -/
theorem runFromResetFoldsTheHostsList : Obligations.RunFromResetFoldsTheHostsList := by
  refine ⟨fun program n => ⟨fun hn => ?_, run_reset_past_end program⟩, rfl⟩
  obtain ⟨t, ht⟩ := hostRun_ignoresPlace (program.take n) State.reset
  exact ⟨atPlace 0 none t, ht 0 none, (run_reset program hn).trans (ht n none)⟩

end Sys2Proof

/-! PROOFS. The state (spec/10_state.md R20, R24, R25, R30): what a command may change and read, and what every step keeps.
The idea: one frame per shared operation, one inversion of what the block can do with an input, and each invariant a short
case split over these. -/

namespace Sys2Proof.Machine

open Sys2Proof.Safety

/-! Frames: what an operation leaves alone. -/

/-- From s to t no register changes but STATUS and those of ws, and nothing of the host's. -/
def Frame (ws : List RegName) (s t : State) : Prop :=
  (∀ r, r ∉ ws → r ≠ .status → readReg r t = readReg r s) ∧
    t.issued = s.issued ∧ t.offered = s.offered ∧ t.observed = s.observed

/-- Two changes in a row write the registers of both. -/
theorem Frame.trans {ws ws' : List RegName} {s t u : State} (h : Frame ws s t) (h' : Frame ws' t u) :
    Frame (ws ++ ws') s u := by
  obtain ⟨hreg, hissued, hoffered, hobserved⟩ := h
  obtain ⟨hreg', hissued', hoffered', hobserved'⟩ := h'
  refine ⟨fun r hr hst => ?_, hissued'.trans hissued, hoffered'.trans hoffered, hobserved'.trans hobserved⟩
  obtain ⟨hr, hr'⟩ : r ∉ ws ∧ r ∉ ws' := by simpa using hr
  exact (hreg' r hr' hst).trans (hreg r hr hst)

theorem Frame.romd_eq {ws : List RegName} {s t : State} (h : Frame ws s t) (hr : RegName.romd ∉ ws) : t.romd = s.romd :=
  h.1 .romd hr (by decide)

theorem frame_refl (ws : List RegName) (s : State) : Frame ws s s := ⟨fun _ _ _ => rfl, rfl, rfl, rfl⟩

theorem frame_raise (ws : List RegName) (f : Flag) (s : State) : Frame ws s (raise f s) :=
  ⟨fun r _ hst => by cases r <;> simp_all [readReg], rfl, rfl, rfl⟩

theorem frame_noticeWhen (ws : List RegName) (c : Bool) (f : Flag) (s : State) : Frame ws s (noticeWhen c f s) := by
  cases c with
  | true => exact frame_raise ws f s
  | false => exact frame_refl ws s

theorem frame_clearFlags (s : State) : Frame [] s (clearFlags s) :=
  ⟨fun r _ hst => by cases r <;> simp_all [readReg], rfl, rfl, rfl⟩

theorem frame_writeQ (qx qy qz : QInt) (s : State) : Frame [.qx, .qy, .qz] s (writeQ qx qy qz s) :=
  ⟨fun r hr _ => by cases r <;> simp_all [readReg], rfl, rfl, rfl⟩

theorem frame_writeCoords (x y z : Word) (s : State) : Frame [.x, .y, .z] s (writeCoords x y z s) :=
  ⟨fun r hr _ => by cases r <;> simp_all [readReg], rfl, rfl, rfl⟩

theorem frame_writeKey (k : KeyWord) (s : State) : Frame [.key] s (writeKey k s) :=
  ⟨fun r hr _ => by cases r <;> simp_all [readReg], rfl, rfl, rfl⟩

theorem frame_writeRomd (v : Word) (s : State) : Frame [.romd] s (writeRomd v s) :=
  ⟨fun r hr _ => by cases r <;> simp_all [readReg], rfl, rfl, rfl⟩

theorem frame_quantizeRegs (s : State) : Frame [.qx, .qy, .qz] s (quantizeRegs s) := frame_writeQ _ _ _ s

theorem frame_extractRegs (k : KeyWord) (s : State) : Frame [.qx, .qy, .qz] s (extractRegs k s) := frame_writeQ _ _ _ s

/-! Every way a command can end, said once. -/

/-- The command i leads from s to t: one constructor per command, and one more for each fault it can end in. -/
inductive CommandResult (s : State) : Instr → State → Prop where
  | nop : CommandResult s .nop s
  | enc (h : coordsValid s = true) :
      CommandResult s .enc (noticeWhen (anySat s) .sat
        (writeKey (interleave (quantize s.x) (quantize s.y) (quantize s.z)) (quantizeRegs s)))
  | encRange (h : coordsValid s = false) : CommandResult s .enc (raise .range s)
  | dec :
      CommandResult s .dec (writeCoords (dequant (extractAxis .x (keyOperand s))) (dequant (extractAxis .y (keyOperand s)))
        (dequant (extractAxis .z (keyOperand s))) (extractRegs (keyOperand s) (noticeWhen (key63 s) .key63 s)))
  | qnt (h : coordsValid s = true) : CommandResult s .qnt (noticeWhen (anySat s) .sat (quantizeRegs s))
  | qntRange (h : coordsValid s = false) : CommandResult s .qnt (raise .range s)
  | ilv : CommandResult s .ilv (writeKey (interleave s.qx s.qy s.qz) s)
  | ext : CommandResult s .ext (extractRegs (keyOperand s) (noticeWhen (key63 s) .key63 s))
  | deq : CommandResult s .deq (writeCoords (dequant s.qx) (dequant s.qy) (dequant s.qz) s)
  | lutf (a : Axis) (l : Level) (row : Chunk) (h : populated l row = true) :
      CommandResult s (.lutf a l row) (writeRomd ((forwardWord a l row).setWidth 64) s)
  | lutfIll (a : Axis) (l : Level) (row : Chunk) (h : populated l row = false) :
      CommandResult s (.lutf a l row) (raise .ill s)
  | luti (a : Axis) (l : Level) (c : Chunk) (h : romInverse a l (keyOperand s) = some c) :
      CommandResult s (.luti a l) (writeRomd (c.setWidth 64) (noticeWhen (key63 s) .key63 s))
  | lutiMiss (a : Axis) (l : Level) (h : romInverse a l (keyOperand s) = none) :
      CommandResult s (.luti a l) (raise .miss (noticeWhen (key63 s) .key63 s))
  | clr : CommandResult s .clr (clearFlags s)

/-- Every command ends in one of these ways. -/
theorem exec_result (i : Instr) (s : State) : ∃ t, exec i s = .next t ∧ CommandResult s i t := by
  cases i with
  | nop => exact ⟨_, rfl, .nop⟩
  | enc =>
    rcases execEnc_cases s with ⟨hc, e⟩ | ⟨hc, e⟩
    · exact ⟨_, e, .enc hc⟩
    · exact ⟨_, e, .encRange hc⟩
  | dec => exact ⟨_, rfl, .dec⟩
  | qnt =>
    rcases execQnt_cases s with ⟨hc, e⟩ | ⟨hc, e⟩
    · exact ⟨_, e, .qnt hc⟩
    · exact ⟨_, e, .qntRange hc⟩
  | ilv => exact ⟨_, rfl, .ilv⟩
  | ext => exact ⟨_, rfl, .ext⟩
  | deq => exact ⟨_, rfl, .deq⟩
  | lutf a l row =>
    rcases execLutf_cases a l row s with ⟨hp, e⟩ | ⟨hp, e⟩
    · exact ⟨_, e, .lutf a l row hp⟩
    · exact ⟨_, e, .lutfIll a l row hp⟩
  | luti a l =>
    rcases execLuti_cases a l s with ⟨c, hc, e⟩ | ⟨hc, e⟩
    · exact ⟨_, e, .luti a l c hc⟩
    · exact ⟨_, e, .lutiMiss a l hc⟩
  | clr => exact ⟨_, rfl, .clr⟩

theorem commandResult_of_exec {i : Instr} {s t : State} (h : exec i s = .next t) : CommandResult s i t := by
  obtain ⟨u, hu, hres⟩ := exec_result i s
  obtain rfl : u = t := by simpa [hu] using h
  exact hres

/-- A command changes STATUS, the registers R20 says it writes, and nothing else. -/
theorem CommandResult.frame {i : Instr} {s t : State} (h : CommandResult s i t) : Frame (commandWrites i) s t := by
  have hn (c : Bool) (f : Flag) (s : State) : Frame [] s (noticeWhen c f s) := frame_noticeWhen [] c f s
  cases h with
  | nop => exact frame_refl _ s
  | enc => exact ((frame_quantizeRegs s).trans (frame_writeKey _ _)).trans (hn _ _ _)
  | encRange => exact frame_raise _ _ s
  | dec => exact ((hn _ _ s).trans (frame_extractRegs _ _)).trans (frame_writeCoords _ _ _ _)
  | qnt => exact (frame_quantizeRegs s).trans (hn _ _ _)
  | qntRange => exact frame_raise _ _ s
  | ilv => exact frame_writeKey _ s
  | ext => exact (hn _ _ s).trans (frame_extractRegs _ _)
  | deq => exact frame_writeCoords _ _ _ s
  | lutf => exact frame_writeRomd _ s
  | lutfIll => exact frame_raise _ _ s
  | luti => exact (hn _ _ s).trans (frame_writeRomd _ _)
  | lutiMiss => exact (hn _ _ s).trans (frame_raise _ _ _)
  | clr => exact frame_clearFlags s

/-! Flags: every operation but clearing keeps the flags that are set (R25, R234). -/

/-- Every flag that is set in s is set in t. -/
def KeepsFlags (s t : State) : Prop := ∀ f, hasFlag f s.status = true → hasFlag f t.status = true

theorem KeepsFlags.trans {s t u : State} (h : KeepsFlags s t) (h' : KeepsFlags t u) : KeepsFlags s u :=
  fun f hf => h' f (h f hf)

theorem keepsFlags_of_status_eq {s t : State} (h : t.status = s.status) : KeepsFlags s t := fun f hf => by rwa [h]

theorem keepsFlags_raise (f : Flag) (s : State) : KeepsFlags s (raise f s) := fun g hg => by
  simp [hasFlag_setFlag, hg]

theorem keepsFlags_noticeWhen (c : Bool) (f : Flag) (s : State) : KeepsFlags s (noticeWhen c f s) := by
  cases c with
  | true => exact keepsFlags_raise f s
  | false => exact fun _ hf => hf

/-- No command but CLR clears a flag. -/
theorem CommandResult.keepsFlags {i : Instr} (hi : i ≠ .clr) {s t : State} (h : CommandResult s i t) : KeepsFlags s t := by
  cases h with
  | nop | ilv | deq | lutf => exact keepsFlags_of_status_eq rfl
  | encRange | qntRange | lutfIll => exact keepsFlags_raise _ s
  | enc => exact (keepsFlags_of_status_eq rfl).trans (keepsFlags_noticeWhen _ .sat (writeKey _ (quantizeRegs s)))
  | qnt => exact (keepsFlags_of_status_eq rfl).trans (keepsFlags_noticeWhen _ .sat (quantizeRegs s))
  | dec | ext | luti => exact (keepsFlags_noticeWhen _ .key63 s).trans (keepsFlags_of_status_eq rfl)
  | lutiMiss => exact (keepsFlags_noticeWhen _ .key63 s).trans (keepsFlags_raise .miss _)
  | clr => contradiction

/-! The word of CLR (R92, R94). -/

/-- A word with both reserved fields zero is laid out from its other four fields (R91). -/
theorem eq_commandWord {w : Word} (h0 : rsv0Field w = 0#4) (h1 : rsv1Field w = 0#40) :
    w = commandWord (opField w) (axisField w) (lvlField w) (rowField w) := by
  rw [commandWord, ← h0, ← h1]
  ext i hi
  grind [opField, axisField, lvlField, rowField, rsv0Field, rsv1Field]

/-- What a word of a command without operands has in its operand fields (R94 item 3). -/
theorem decodePlain_eq_ok {w : Word} {i j : Instr} (h : decodePlain w i = .ok j) :
    i = j ∧ axisField w = 0#2 ∧ lvlField w = 0#2 ∧ rowField w = 0#8 := by
  unfold decodePlain at h
  split at h
  next hf => exact ⟨Except.ok.inj h, hf⟩
  next => cases h

theorem decodeLutf_eq_ok {w : Word} {i : Instr} (h : decodeLutf w = .ok i) : ∃ a l, i = .lutf a l (rowField w) := by
  unfold decodeLutf at h
  split at h
  next a l _ _ =>
    split at h
    next => cases h
    next => exact ⟨a, l, (Except.ok.inj h).symm⟩
  next => cases h

theorem decodeLuti_eq_ok {w : Word} {i : Instr} (h : decodeLuti w = .ok i) : ∃ a l, i = .luti a l := by
  unfold decodeLuti at h
  split at h
  next a l _ _ =>
    split at h
    next => exact ⟨a, l, (Except.ok.inj h).symm⟩
    next => cases h
  next => cases h

theorem decode_eq_ok {w : Word} {i : Instr} (h : decode w = .ok i) :
    rsv0Field w = 0#4 ∧ rsv1Field w = 0#40 ∧ decodeOp w = .ok i := by
  unfold decode at h
  split at h
  next => cases h
  next hr => simpa [not_or, and_assoc] using And.intro hr h

/-- Among the opcodes only 0x09 gives CLR. -/
theorem decodeOp_eq_ok_clr {w : Word} (h : decodeOp w = .ok .clr) :
    opField w = 9#8 ∧ axisField w = 0#2 ∧ lvlField w = 0#2 ∧ rowField w = 0#8 := by
  unfold decodeOp at h
  split at h
  -- the arms in order: h_8 is LUTF, h_9 LUTI, h_10 CLR, h_11 the unassigned opcodes
  case h_10 hop => exact ⟨BitVec.eq_of_toNat_eq hop, (decodePlain_eq_ok h).2⟩
  case h_8 => simpa using decodeLutf_eq_ok h
  case h_9 => simpa using decodeLuti_eq_ok h
  case h_11 => cases h
  all_goals simpa using (decodePlain_eq_ok h).1

/-- CLR has the one word 9. -/
theorem decode_eq_ok_clr_iff (w : Word) : decode w = .ok .clr ↔ w = 9#64 := by
  refine ⟨fun h => ?_, fun h => h ▸ (by decide)⟩
  obtain ⟨h0, h1, hop⟩ := decode_eq_ok h
  obtain ⟨hop, haxis, hlvl, hrow⟩ := decodeOp_eq_ok_clr hop
  rw [eq_commandWord h0 h1, hop, haxis, hlvl, hrow]
  decide

/-! Every way the block can take an input, said once (R211, R217, R260). -/

/-- What a host write of w stores in the register r: the word in a data register, its low 21 bits in a Q register, nothing in
the others (R211 to R213). -/
def storeReg (r : RegName) (w : Word) (s : State) : State :=
  match r with
  | .x => { s with x := w }
  | .y => { s with y := w }
  | .z => { s with z := w }
  | .key => { s with key := w }
  | .qx => { s with qx := w.extractLsb' 0 21 }
  | .qy => { s with qy := w.extractLsb' 0 21 }
  | .qz => { s with qz := w.extractLsb' 0 21 }
  | .romd => s
  | .status => s
  | .cmd => s

@[simp] theorem storeReg_romd (r : RegName) (w : Word) (s : State) : (storeReg r w s).romd = s.romd := by cases r <;> rfl
@[simp] theorem storeReg_status (r : RegName) (w : Word) (s : State) : (storeReg r w s).status = s.status := by
  cases r <;> rfl

/-- The block takes the input e in the state s and is then in the state t. -/
inductive InputResult (s : State) : HostInput → State → Prop where
  | reset : InputResult s .reset (hostReset s)
  | read (idx : RegIdx) (r : RegName) (h : regAt idx = some r) :
      InputResult s (.transaction (.rd idx)) (observe (readReg r s) s)
  | readUnmapped (idx : RegIdx) (h : regAt idx = none) :
      InputResult s (.transaction (.rd idx)) (raise .ill (observe 0#64 s))
  | store (idx : RegIdx) (w : Word) (r : RegName) (h : regAt idx = some r) (hr : r ∉ [.romd, .status, .cmd]) :
      InputResult s (.transaction (.wr idx w)) (storeReg r w s)
  | refusedWrite (idx : RegIdx) (w : Word) (h : regAt idx ∈ [none, some .romd, some .status]) :
      InputResult s (.transaction (.wr idx w)) (raise .ill s)
  | illegalWord (w : Word) (e : IllegalWord) (h : decode w = .error e) :
      InputResult s (.transaction (.wr 9#4 w)) (raise .ill s)
  | command (w : Word) (i : Instr) (t : State) (h : decode w = .ok i) (ht : CommandResult s i t) :
      InputResult s (.transaction (.wr 9#4 w)) t

theorem hostRead_result {idx : RegIdx} {s t : State} (h : hostRead idx s = .next t) :
    InputResult s (.transaction (.rd idx)) t := by
  cases hr : regAt idx with
  | some r =>
    obtain rfl : observe (readReg r s) s = t := by simpa [hostRead, hr] using h
    exact .read idx r hr
  | none =>
    obtain rfl : raise .ill (observe 0#64 s) = t := by simpa [hostRead, hr] using h
    exact .readUnmapped idx hr

theorem runCommand_result {w : Word} {s t : State} (h : runCommand w s = .next t) :
    InputResult s (.transaction (.wr 9#4 w)) t := by
  rcases runCommand_cases w s with ⟨i, hd, hrun⟩ | ⟨e, hd, hrun⟩
  · exact .command w i t hd (commandResult_of_exec (hrun ▸ h))
  · obtain rfl : raise .ill s = t := by simpa [hrun] using h
    exact .illegalWord w e hd

theorem hostWrite_of_store {idx : RegIdx} {r : RegName} (h : regAt idx = some r) (hr : r ∉ [.romd, .status, .cmd])
    (w : Word) (s : State) : hostWrite idx w s = .next (storeReg r w s) := by
  cases r <;> simp_all [hostWrite, storeReg]

theorem hostWrite_of_refused {idx : RegIdx} (h : regAt idx ∈ [none, some .romd, some .status]) (w : Word) (s : State) :
    hostWrite idx w s = .next (raise .ill s) := by
  obtain h | h | h : regAt idx = none ∨ regAt idx = some .romd ∨ regAt idx = some .status := by simpa using h
  all_goals simp only [hostWrite, h, takeFault_eq]

theorem hostWrite_result {idx : RegIdx} {w : Word} {s t : State} (h : hostWrite idx w s = .next t) :
    InputResult s (.transaction (.wr idx w)) t := by
  by_cases hcmd : regAt idx = some .cmd
  · obtain rfl := (regAt_eq_cmd_iff idx).mp hcmd
    exact runCommand_result h
  by_cases href : regAt idx ∈ [none, some .romd, some .status]
  · obtain rfl : raise .ill s = t := by simpa [hostWrite_of_refused href] using h
    exact .refusedWrite idx w href
  obtain ⟨r, hr⟩ : ∃ r, regAt idx = some r := Option.ne_none_iff_exists'.mp (by simp_all)
  have hdata : r ∉ [.romd, .status, .cmd] := by simp_all
  obtain rfl : storeReg r w s = t := by simpa [hostWrite_of_store hr hdata] using h
  exact .store idx w r hr hdata

theorem accept_result {e : HostInput} {s t : State} (h : accept e s = .next t) : InputResult s e t := by
  cases e with
  | reset =>
    obtain rfl := Host.Outcome.next.inj h
    exact .reset
  | transaction tr =>
    cases tr with
    | rd idx => exact hostRead_result h
    | wr idx w => exact hostWrite_result h

/-- Taking the next input changes the host's place alone. -/
theorem nextInput_eq_atPlace {program : List HostInput} {r s : State} {e : HostInput}
    (h : nextInput program r = some (e, s)) : ∃ n o, s = atPlace n o r := by
  rcases nextInput_cases h with ⟨-, rfl⟩ | ⟨-, -, rfl⟩
  · exact ⟨r.issued, none, rfl⟩
  · exact ⟨r.issued + 1, r.offered, rfl⟩

/-- A step that answers a next state takes an input, and taking it from the list changes the host's place alone. -/
theorem stepWith_result {program : List HostInput} {r t : State} (h : stepWith program r = .next t) :
    ∃ e n o, InputResult (atPlace n o r) e t := by
  cases hn : nextInput program r with
  | none => simp [stepWith_of_none hn] at h
  | some p =>
    obtain ⟨e, s⟩ := p
    obtain ⟨n, o, rfl⟩ := nextInput_eq_atPlace hn
    exact ⟨e, n, o, accept_result ((stepWith_of_next hn).symm.trans h)⟩

/-! The flags over a step (R25, R241). -/

/-- The inputs that clear flags, by name. -/
theorem clearsFlags_iff (e : HostInput) :
    clearsFlags e = true ↔ e = .reset ∨ e = .transaction (.wr 9#4 9#64) := by
  rcases e with (idx | ⟨idx, w⟩) | _ <;> simp [clearsFlags]

/-- CLR and reset leave no flag set. -/
theorem InputResult.status_of_clearsFlags {e : HostInput} {s t : State} (h : InputResult s e t)
    (he : clearsFlags e = true) : t.status = 0#5 := by
  obtain rfl | rfl := (clearsFlags_iff e).mp he
  · cases h
    rfl
  · have hclr : decode 9#64 = .ok .clr := (decode_eq_ok_clr_iff _).mpr rfl
    cases h with
    | command _ i _ hd hres =>
      obtain rfl : i = .clr := by simpa [hclr] using hd.symm
      cases hres
      rfl
    | illegalWord _ _ hd => simp [hclr] at hd
    | store _ _ r hr hdata =>
      obtain rfl : RegName.cmd = r := Option.some.inj hr
      simp at hdata
    | refusedWrite _ _ hr => exact absurd hr (by decide)

/-- Any other input keeps the flags that are set. -/
theorem InputResult.keepsFlags {e : HostInput} {s t : State} (h : InputResult s e t) (he : clearsFlags e = false) :
    KeepsFlags s t := by
  cases h with
  | reset => cases he
  | read => exact keepsFlags_of_status_eq rfl
  | readUnmapped => exact keepsFlags_raise .ill (observe 0#64 s)
  | store => exact keepsFlags_of_status_eq (storeReg_status _ _ s)
  | refusedWrite | illegalWord => exact keepsFlags_raise .ill s
  | command w i _ hd hres =>
    refine hres.keepsFlags fun hi => ?_
    obtain rfl := (decode_eq_ok_clr_iff w).mp (hi ▸ hd)
    cases he

/-! ROMD (R24). -/

@[simp] theorem forwardWord_zero (a : Axis) (l : Level) : forwardWord a l 0#8 = 0#63 := by
  have hs : spread 0#8 = 0#22 := by decide
  simp [forwardWord, hs]

theorem romdIsTableRead_of_eq_zero {s : State} (h : s.romd = 0#64) : RomdIsTableRead s :=
  .inl ⟨.x, .three, 0#8, rfl, by simp [h]⟩

theorem romdIsTableRead_of_romd_eq {s t : State} (h : RomdIsTableRead s) (e : t.romd = s.romd) : RomdIsTableRead t := by
  unfold RomdIsTableRead at *
  rwa [e]

/-- A command leaves ROMD alone or puts a table read there. -/
theorem CommandResult.keeps_romdIsTableRead {i : Instr} {s t : State} (h : CommandResult s i t)
    (hs : RomdIsTableRead s) : RomdIsTableRead t := by
  by_cases hw : RegName.romd ∈ commandWrites i
  · cases h with
    | lutf a l row hp => exact .inl ⟨a, l, row, hp, rfl⟩
    | lutfIll => exact hs
    | luti _ _ c => exact .inr ⟨c, rfl⟩
    | lutiMiss => exact romdIsTableRead_of_romd_eq hs (by simp)
    | _ => simp [commandWrites] at hw
  · exact romdIsTableRead_of_romd_eq hs (h.frame.romd_eq hw)

theorem InputResult.keeps_romdIsTableRead {e : HostInput} {s t : State} (h : InputResult s e t)
    (hs : RomdIsTableRead s) : RomdIsTableRead t := by
  cases h with
  | reset => exact romdIsTableRead_of_eq_zero (hostReset_romd s)
  | read | readUnmapped | refusedWrite | illegalWord => exact romdIsTableRead_of_romd_eq hs rfl
  | store => exact romdIsTableRead_of_romd_eq hs (storeReg_romd _ _ s)
  | command _ _ _ _ hres => exact hres.keeps_romdIsTableRead hs

theorem stepWith_keeps_romdIsTableRead {program : List HostInput} {s t : State} (hs : RomdIsTableRead s)
    (h : stepWith program s = .next t) : RomdIsTableRead t := by
  obtain ⟨e, n, o, hres⟩ := stepWith_result h
  exact hres.keeps_romdIsTableRead (romdIsTableRead_of_romd_eq hs rfl)

/-! What a command reads (R30). -/

/-- Of two runs of an operation, from s to t and from u to v: equal STATUS stays equal, and the registers of ws are written
with the same values in both runs, or in neither. -/
def SameEffect (ws : List RegName) (s u t v : State) : Prop :=
  (s.status = u.status → t.status = v.status) ∧
    ((∀ r ∈ ws, readReg r t = readReg r v) ∨ ∀ r ∈ ws, readReg r t = readReg r s ∧ readReg r v = readReg r u)

/-- Raising one flag has the same effect everywhere. -/
theorem sameEffect_raise {ws : List RegName} (hw : RegName.status ∉ ws) (f : Flag) (s u : State) :
    SameEffect ws s u (raise f s) (raise f u) := by
  refine ⟨fun e => by simp [e], .inr fun r hr => ?_⟩
  have hst : r ≠ .status := fun e => hw (e ▸ hr)
  exact ⟨(frame_raise [] f s).1 r (by simp) hst, (frame_raise [] f u).1 r (by simp) hst⟩

/-- The Q registers are read without loss. -/
theorem qRegs_eq_of_readReg {s u : State} (h : ∀ r ∈ [RegName.qx, .qy, .qz], readReg r s = readReg r u) :
    s.qx = u.qx ∧ s.qy = u.qy ∧ s.qz = u.qz := by
  obtain ⟨hx, hy, hz⟩ : s.qx.setWidth 64 = u.qx.setWidth 64 ∧ s.qy.setWidth 64 = u.qy.setWidth 64 ∧
      s.qz.setWidth 64 = u.qz.setWidth 64 := by simpa [readReg] using h
  exact ⟨by bv_omega, by bv_omega, by bv_omega⟩

section
variable {s u t v : State}

theorem coordsValid_congr (hx : s.x = u.x) (hy : s.y = u.y) (hz : s.z = u.z) : coordsValid s = coordsValid u := by
  simp only [coordsValid, hx, hy, hz]

theorem anySat_congr (hx : s.x = u.x) (hy : s.y = u.y) (hz : s.z = u.z) : anySat s = anySat u := by
  simp only [anySat, hx, hy, hz]

theorem keyOperand_congr (h : s.key = u.key) : keyOperand s = keyOperand u := by simp only [keyOperand, h]

theorem key63_congr (h : s.key = u.key) : key63 s = key63 u := by simp only [key63, h]

/-! The commands that can fault: the fault's condition is the same in both states, so both runs fault or neither does. -/

theorem sameEffect_qnt (hx : s.x = u.x) (hy : s.y = u.y) (hz : s.z = u.z)
    (h : CommandResult s .qnt t) (h' : CommandResult u .qnt v) : SameEffect (commandWrites .qnt) s u t v := by
  have hvalid := coordsValid_congr hx hy hz
  cases h with
  | qnt hc =>
    cases h' with
    | qnt =>
      exact ⟨fun e => by simp [quantizeRegs, anySat_congr hx hy hz, e],
        .inl (by simp [commandWrites, readReg, quantizeRegs, hx, hy, hz])⟩
    | qntRange hc' => cases hc.symm.trans (hvalid.trans hc')
  | qntRange hc =>
    cases h' with
    | qnt hc' => cases hc.symm.trans (hvalid.trans hc')
    | qntRange => exact sameEffect_raise (by decide) _ s u

theorem sameEffect_enc (hx : s.x = u.x) (hy : s.y = u.y) (hz : s.z = u.z)
    (h : CommandResult s .enc t) (h' : CommandResult u .enc v) : SameEffect (commandWrites .enc) s u t v := by
  have hvalid := coordsValid_congr hx hy hz
  cases h with
  | enc hc =>
    cases h' with
    | enc =>
      exact ⟨fun e => by simp [quantizeRegs, anySat_congr hx hy hz, e],
        .inl (by simp [commandWrites, readReg, quantizeRegs, hx, hy, hz])⟩
    | encRange hc' => cases hc.symm.trans (hvalid.trans hc')
  | encRange hc =>
    cases h' with
    | enc hc' => cases hc.symm.trans (hvalid.trans hc')
    | encRange => exact sameEffect_raise (by decide) _ s u

theorem sameEffect_lutf {a : Axis} {l : Level} {row : Chunk} (h : CommandResult s (.lutf a l row) t)
    (h' : CommandResult u (.lutf a l row) v) : SameEffect (commandWrites (.lutf a l row)) s u t v := by
  cases h with
  | lutf _ _ _ hp =>
    cases h' with
    | lutf => exact ⟨id, .inl (by simp [commandWrites, readReg])⟩
    | lutfIll _ _ _ hp' => cases hp.symm.trans hp'
  | lutfIll _ _ _ hp =>
    cases h' with
    | lutf _ _ _ hp' => cases hp.symm.trans hp'
    | lutfIll => exact sameEffect_raise (by simp [commandWrites]) _ s u

theorem sameEffect_luti {a : Axis} {l : Level} (hkey : s.key = u.key) (h : CommandResult s (.luti a l) t)
    (h' : CommandResult u (.luti a l) v) : SameEffect (commandWrites (.luti a l)) s u t v := by
  have hlook : romInverse a l (keyOperand s) = romInverse a l (keyOperand u) := by rw [keyOperand_congr hkey]
  cases h with
  | luti _ _ c hc =>
    cases h' with
    | luti _ _ c' hc' =>
      obtain rfl : c = c' := Option.some.inj (hc.symm.trans (hlook.trans hc'))
      exact ⟨fun e => by simp [key63_congr hkey, e], .inl (by simp [commandWrites, readReg])⟩
    | lutiMiss _ _ hc' => cases hc.symm.trans (hlook.trans hc')
  | lutiMiss _ _ hc =>
    cases h' with
    | luti _ _ c' hc' => cases hc.symm.trans (hlook.trans hc')
    | lutiMiss => exact ⟨fun e => by simp [key63_congr hkey, e], .inr (by simp [commandWrites, readReg])⟩

/-- In two states that agree on the registers a command reads, it has the same effect. -/
theorem CommandResult.sameEffect {i : Instr} (hreads : ∀ r ∈ commandReads i, readReg r s = readReg r u)
    (h : CommandResult s i t) (h' : CommandResult u i v) : SameEffect (commandWrites i) s u t v := by
  cases i with
  | nop =>
    cases h; cases h'
    exact ⟨id, .inl (by simp [commandWrites])⟩
  | enc =>
    obtain ⟨hx, hy, hz⟩ : s.x = u.x ∧ s.y = u.y ∧ s.z = u.z := by simpa [commandReads, readReg] using hreads
    exact sameEffect_enc hx hy hz h h'
  | dec | ext =>
    have hkey : s.key = u.key := by simpa [commandReads, readReg] using hreads
    cases h; cases h'
    exact ⟨fun e => by simp [extractRegs, key63_congr hkey, e],
      .inl (by simp [commandWrites, readReg, extractRegs, keyOperand_congr hkey])⟩
  | qnt =>
    obtain ⟨hx, hy, hz⟩ : s.x = u.x ∧ s.y = u.y ∧ s.z = u.z := by simpa [commandReads, readReg] using hreads
    exact sameEffect_qnt hx hy hz h h'
  | ilv | deq =>
    obtain ⟨hx, hy, hz⟩ := qRegs_eq_of_readReg hreads
    cases h; cases h'
    exact ⟨id, .inl (by simp [commandWrites, readReg, hx, hy, hz])⟩
  | lutf a l row => exact sameEffect_lutf h h'
  | luti a l => exact sameEffect_luti (by simpa [commandReads, readReg] using hreads) h h'
  | clr =>
    cases h; cases h'
    exact ⟨fun _ => rfl, .inl (by simp [commandWrites])⟩

end

end Sys2Proof.Machine

namespace Sys2Proof

open Sys2Proof.Machine Sys2Proof.Safety

/-- Settles O57: an input leaves ROMD alone, clears it, or runs a command that leaves a table read there. -/
theorem romdStaysATableRead : Obligations.RomdStaysATableRead :=
  ⟨fun _ _ hs h => stepWith_keeps_romdIsTableRead (program := Config.hostProgram) hs h,
    fun _ _ _ hs h => stepWith_keeps_romdIsTableRead hs h⟩

/-- Settles O58: zero is the forward word of row 0. -/
theorem romdIsATableReadAtReset : Obligations.RomdIsATableReadAtReset :=
  romdIsTableRead_of_eq_zero rfl

/-- Settles O48, by the ways the block can take an input; taking it from the list changes no flag. -/
theorem flagsAreSticky : Obligations.FlagsAreSticky := by
  intro program r s t e hn h
  have hres : InputResult s e t := accept_result ((stepWith_of_next hn).symm.trans h)
  obtain ⟨n, o, rfl⟩ := nextInput_eq_atPlace hn
  exact ⟨hres.status_of_clearsFlags, fun he => hres.keepsFlags he⟩

/-- Settles O52: the frame of the command. -/
theorem commandsWriteOnlyTheirRegisters : Obligations.CommandsWriteOnlyTheirRegisters :=
  fun _ _ _ h => (commandResult_of_exec h).frame

/-- Settles O53: a command's result is a function of the registers it reads, in STATUS and in what it writes. -/
theorem commandsReadOnlyTheirRegisters : Obligations.CommandsReadOnlyTheirRegisters := by
  intro i s u hreads
  obtain ⟨t, ht, hres⟩ := exec_result i s
  obtain ⟨v, hv, hres'⟩ := exec_result i u
  exact ⟨t, v, ht, hv, hres.sameEffect hreads hres'⟩

end Sys2Proof

/-! PROOFS. Repetition (spec/20_memory.md R58; spec/70_reset_and_hazards.md R270): a command run again on its own result changes
nothing more. The idea: a command writes no register it reads, so its second run meets the operands of the first, writes the
same values and raises only flags that are set already. -/

namespace Sys2Proof.Machine

open Sys2Proof.Safety

/-! Raising a flag that is set changes nothing (R25). -/

@[simp] theorem raise_raise (f : Flag) (s : State) : raise f (raise f s) = raise f s := by simp [raise]

/-- A notice whose condition is that of an earlier one, with no flag cleared since then. -/
theorem noticeWhen_status_of_keepsFlags {c c' : Bool} {f : Flag} {s t : State} (hc : c' = c)
    (h : KeepsFlags (noticeWhen c f s) t) : (noticeWhen c' f t).status = t.status := by
  subst hc
  cases c' with
  | true => exact setFlag_of_hasFlag f _ (h f (by simp [hasFlag_setFlag]))
  | false => rfl

/-! What a command reads it leaves alone (R270). -/

/-- No register is both source and destination of a command. -/
theorem not_mem_commandWrites_of_mem_commandReads (i : Instr) : ∀ r ∈ commandReads i, r ∉ commandWrites i := by
  cases i <;> simp [commandReads, commandWrites]

theorem status_not_mem_commandReads (i : Instr) : RegName.status ∉ commandReads i := by
  cases i <;> simp [commandReads]

theorem CommandResult.readReg_eq {i : Instr} {s t : State} (h : CommandResult s i t) {r : RegName}
    (hr : r ∈ commandReads i) : readReg r t = readReg r s :=
  h.frame.1 r (not_mem_commandWrites_of_mem_commandReads i r hr) fun e => status_not_mem_commandReads i (e ▸ hr)

/-- After a command that reads the coordinates, the conditions on them are as before. -/
theorem CommandResult.coordConditions_eq {i : Instr} {s t : State} (h : CommandResult s i t)
    (hi : commandReads i = [.x, .y, .z]) : coordsValid t = coordsValid s ∧ anySat t = anySat s := by
  have hx : t.x = s.x := h.readReg_eq (r := .x) (by simp [hi])
  have hy : t.y = s.y := h.readReg_eq (r := .y) (by simp [hi])
  have hz : t.z = s.z := h.readReg_eq (r := .z) (by simp [hi])
  exact ⟨coordsValid_congr hx hy hz, anySat_congr hx hy hz⟩

/-- After a command that reads KEY, the key and the condition on bit 63 are as before. -/
theorem CommandResult.keyConditions_eq {i : Instr} {s t : State} (h : CommandResult s i t)
    (hi : commandReads i = [.key]) : keyOperand t = keyOperand s ∧ key63 t = key63 s := by
  have hkey : t.key = s.key := h.readReg_eq (r := .key) (by simp [hi])
  exact ⟨keyOperand_congr hkey, key63_congr hkey⟩

/-! The second run. -/

/-- A change that writes what already stands there is none. -/
theorem Frame.eq_of_readReg_eq {ws : List RegName} {s t : State} (h : Frame ws s t)
    (hw : ∀ r ∈ ws, readReg r t = readReg r s) (hst : t.status = s.status) : t = s := by
  obtain ⟨hreg, hissued, hoffered, hobserved⟩ := h
  have hall (r : RegName) (hr : r ≠ .status) : readReg r t = readReg r s := by
    by_cases hmem : r ∈ ws
    · exact hw r hmem
    · exact hreg r hmem hr
  obtain ⟨hqx, hqy, hqz⟩ := qRegs_eq_of_readReg fun r hr => hall r (by rintro rfl; simp at hr)
  have hx : t.x = s.x := hall .x (by decide)
  have hy : t.y = s.y := hall .y (by decide)
  have hz : t.z = s.z := hall .z (by decide)
  have hkey : t.key = s.key := hall .key (by decide)
  have hromd : t.romd = s.romd := hall .romd (by decide)
  cases s
  cases t
  simp_all

/-- Two runs of a command in a row can differ in STATUS alone: the second has the first one's operands. -/
theorem CommandResult.eq_of_status_eq {i : Instr} {s t u : State} (h : CommandResult s i t) (h' : CommandResult t i u)
    (hst : u.status = t.status) : u = t := by
  obtain ⟨-, hsame | hkept⟩ := h'.sameEffect (fun r hr => h.readReg_eq hr) h
  · exact h'.frame.eq_of_readReg_eq hsame hst
  · exact h'.frame.eq_of_readReg_eq (fun r hr => (hkept r hr).1) hst

/-- The second run ends in the same way as the first and finds every flag that it raises set. -/
theorem CommandResult.again_status {i : Instr} {s t : State} (h : CommandResult s i t) :
    ∃ u, CommandResult t i u ∧ u.status = t.status := by
  cases i with
  | nop => exact ⟨_, .nop, rfl⟩
  | enc =>
    obtain ⟨hvalid, hsat⟩ := h.coordConditions_eq rfl
    cases h with
    | enc hc => exact ⟨_, .enc (hvalid.trans hc), noticeWhen_status_of_keepsFlags hsat fun _ => id⟩
    | encRange hc => exact ⟨_, .encRange (hvalid.trans hc), by simp⟩
  | qnt =>
    obtain ⟨hvalid, hsat⟩ := h.coordConditions_eq rfl
    cases h with
    | qnt hc => exact ⟨_, .qnt (hvalid.trans hc), noticeWhen_status_of_keepsFlags hsat fun _ => id⟩
    | qntRange hc => exact ⟨_, .qntRange (hvalid.trans hc), by simp⟩
  | dec =>
    obtain ⟨-, h63⟩ := h.keyConditions_eq rfl
    cases h
    exact ⟨_, .dec, noticeWhen_status_of_keepsFlags h63 fun _ => id⟩
  | ext =>
    obtain ⟨-, h63⟩ := h.keyConditions_eq rfl
    cases h
    exact ⟨_, .ext, noticeWhen_status_of_keepsFlags h63 fun _ => id⟩
  | ilv => exact ⟨_, .ilv, rfl⟩
  | deq => exact ⟨_, .deq, rfl⟩
  | lutf a l row =>
    cases h with
    | lutf _ _ _ hp => exact ⟨_, .lutf a l row hp, rfl⟩
    | lutfIll _ _ _ hp => exact ⟨_, .lutfIll a l row hp, by simp⟩
  | luti a l =>
    obtain ⟨hkey, h63⟩ := h.keyConditions_eq rfl
    cases h with
    | luti _ _ c hc => exact ⟨_, .luti a l c (hkey ▸ hc), noticeWhen_status_of_keepsFlags h63 fun _ => id⟩
    | lutiMiss _ _ hc =>
      have hnotice := noticeWhen_status_of_keepsFlags h63 (keepsFlags_raise .miss (noticeWhen (key63 s) .key63 s))
      exact ⟨_, .lutiMiss a l (hkey ▸ hc), (congrArg (setFlag .miss) hnotice).trans (setFlag_setFlag _ _)⟩
  | clr =>
    cases h
    exact ⟨_, .clr, rfl⟩

/-- A command that leads to t leads from t to t. -/
theorem CommandResult.again {i : Instr} {s t : State} (h : CommandResult s i t) : CommandResult t i t := by
  obtain ⟨u, hres, hst⟩ := h.again_status
  obtain rfl := h.eq_of_status_eq hres hst
  exact hres

/-- What a command can end in, it does end in. -/
theorem CommandResult.exec_eq {i : Instr} {s t : State} (h : CommandResult s i t) : exec i s = .next t := by
  cases h with
  | nop | dec | ilv | ext | deq | clr => rfl
  | enc hc | encRange hc => simp [exec, execEnc, hc]
  | qnt hc | qntRange hc => simp [exec, execQnt, hc]
  | lutf _ _ _ hp | lutfIll _ _ _ hp => simp [exec, execLutf, romForward, hp]
  | luti _ _ _ hc | lutiMiss _ _ hc => simp [exec, execLuti, hc]

end Sys2Proof.Machine

namespace Sys2Proof

open Sys2Proof.Machine

/-- Settles O54: a command writes no register it reads, so a second run ends as the first did. -/
theorem repeatedCommandChangesNothingMore : Obligations.RepeatedCommandChangesNothingMore :=
  ⟨fun _ _ _ h => (commandResult_of_exec h).again.exec_eq, not_mem_commandWrites_of_mem_commandReads⟩

end Sys2Proof

/-! PROOFS. Encoding (spec/30_encoding.md R87, R91 to R96). The idea: a word with both reserved fields zero is its other four
fields laid out, so a word decodes to a command exactly when the command is well-formed and the word is its encoding, and it
meets R94's conditions exactly when it is such an encoding. Which words the decoder accepts, how many there are and what an
illegal word does follow from these two equivalences. -/

namespace Sys2Proof

open Sys2Proof.Machine Sys2Proof.Safety

/-! The fields of a word laid out by R91. -/

section
variable (op : BitVec 8) (axis lvl : BitVec 2) (row : BitVec 8)

theorem operands_commandWord :
    axisField (commandWord op axis lvl row) = axis ∧ lvlField (commandWord op axis lvl row) = lvl ∧
      rowField (commandWord op axis lvl row) = row := by
  refine ⟨?_, ?_, ?_⟩ <;>
    ext i hi <;>
    simp only [axisField, lvlField, rowField, commandWord, BitVec.getElem_extractLsb', BitVec.getLsbD_append] <;>
    grind

@[simp] theorem rsv0Field_commandWord : rsv0Field (commandWord op axis lvl row) = 0#4 :=
  (Laws.LegalWord.fields_commandWord op axis lvl row).1

@[simp] theorem rsv1Field_commandWord : rsv1Field (commandWord op axis lvl row) = 0#40 :=
  (Laws.LegalWord.fields_commandWord op axis lvl row).2.1

@[simp] theorem opField_commandWord : opField (commandWord op axis lvl row) = op :=
  (Laws.LegalWord.fields_commandWord op axis lvl row).2.2

@[simp] theorem axisField_commandWord : axisField (commandWord op axis lvl row) = axis :=
  (operands_commandWord op axis lvl row).1

@[simp] theorem lvlField_commandWord : lvlField (commandWord op axis lvl row) = lvl :=
  (operands_commandWord op axis lvl row).2.1

@[simp] theorem rowField_commandWord : rowField (commandWord op axis lvl row) = row :=
  (operands_commandWord op axis lvl row).2.2

/-- The decoder goes on to the opcode, since both reserved fields are zero. -/
@[simp] theorem decode_commandWord : decode (commandWord op axis lvl row) = decodeOp (commandWord op axis lvl row) := by
  simp [decode]

end

/-! The operand fields of LUTF and LUTI (R93, R94). -/

theorem axisOfField_eq_some_iff (f : BitVec 2) (a : Axis) : axisOfField f = some a ↔ f = axisBits a := by
  revert f; cases a <;> decide

theorem levelOfField_eq_some_iff (f : BitVec 2) (l : Level) : levelOfField f = some l ↔ f = levelBits l := by
  revert f; cases l <;> decide

/-- The AXIS fields 0 to 2 are those of the axes. -/
theorem exists_axisBits_iff (f : BitVec 2) : (∃ a, f = axisBits a) ↔ f.toNat ≤ 2 := by
  simp only [← axisOfField_eq_some_iff, ← Option.isSome_iff_exists]
  revert f; decide

/-- The LVL fields from 1 are those of the levels. -/
theorem exists_levelBits_iff (f : BitVec 2) : (∃ l, f = levelBits l) ↔ 1 ≤ f.toNat := by
  simp only [← levelOfField_eq_some_iff, ← Option.isSome_iff_exists]
  revert f; decide

/-- The row constraint of a LUTF, in the decoder's form. -/
theorem wellFormed_lutf_iff (a : Axis) (l : Level) (row : Chunk) :
    (Instr.lutf a l row).wellFormed = true ↔ ¬(l = .one ∧ 31 < row.toNat) := by
  cases l <;> simp [Instr.wellFormed]

/-! A word decodes to a command exactly when the command is well-formed and the word is its encoding. -/

/-- Decoding inverts encoding (R95). -/
theorem decode_encode {i : Instr} (hi : i.wellFormed = true) : decode (encode i) = .ok i := by
  have haxis (a : Axis) : axisOfField (axisBits a) = some a := (axisOfField_eq_some_iff _ a).mpr rfl
  have hlvl (l : Level) : levelOfField (levelBits l) = some l := (levelOfField_eq_some_iff _ l).mpr rfl
  cases i with
  | nop | enc | dec | qnt | ilv | ext | deq | clr => simp [encode, decodeOp, decodePlain]
  | lutf a l row =>
    simp [encode, decodeOp, decodeLutf, haxis, hlvl, (wellFormed_lutf_iff a l row).mp hi]
  | luti a l => simp [encode, decodeOp, decodeLuti, haxis, hlvl]

/-- An accepted LUTF word names an axis, a level and a populated row (R94 item 4). -/
theorem decodeLutf_operands {w : Word} {i : Instr} (h : decodeLutf w = .ok i) :
    ∃ a l, axisField w = axisBits a ∧ lvlField w = levelBits l ∧ i = .lutf a l (rowField w) ∧ i.wellFormed = true := by
  unfold decodeLutf at h
  split at h
  next a l ha hl =>
    split at h
    next => cases h
    next hrow =>
      obtain rfl := Except.ok.inj h
      exact ⟨a, l, (axisOfField_eq_some_iff _ a).mp ha, (levelOfField_eq_some_iff _ l).mp hl, rfl,
        (wellFormed_lutf_iff a l _).mpr hrow⟩
  next => cases h

/-- An accepted LUTI word names an axis and a level, and its row is zero (R94 item 5). -/
theorem decodeLuti_operands {w : Word} {i : Instr} (h : decodeLuti w = .ok i) :
    ∃ a l, axisField w = axisBits a ∧ lvlField w = levelBits l ∧ rowField w = 0#8 ∧ i = .luti a l := by
  unfold decodeLuti at h
  split at h
  next a l ha hl =>
    split at h
    next hrow =>
      exact ⟨a, l, (axisOfField_eq_some_iff _ a).mp ha, (levelOfField_eq_some_iff _ l).mp hl, hrow,
        (Except.ok.inj h).symm⟩
    next => cases h
  next => cases h

/-- The opcode map gives a command that is well-formed and whose encoding has the word's fields (R92). -/
theorem decodeOp_eq_ok {w : Word} {i : Instr} (h : decodeOp w = .ok i) :
    i.wellFormed = true ∧ encode i = commandWord (opField w) (axisField w) (lvlField w) (rowField w) := by
  unfold decodeOp at h
  split at h
  -- the arms in order: h_8 is LUTF, h_9 LUTI, h_11 the unassigned opcodes
  case h_8 hop =>
    obtain ⟨a, l, ha, hl, rfl, hi⟩ := decodeLutf_operands h
    exact ⟨hi, by rw [BitVec.eq_of_toNat_eq (y := 7#8) hop, ha, hl]; rfl⟩
  case h_9 hop =>
    obtain ⟨a, l, ha, hl, hrow, rfl⟩ := decodeLuti_operands h
    exact ⟨rfl, by rw [BitVec.eq_of_toNat_eq (y := 8#8) hop, ha, hl, hrow]; rfl⟩
  case h_11 => cases h
  all_goals
    rename_i hop
    obtain ⟨rfl, ha, hl, hrow⟩ := decodePlain_eq_ok h
    exact ⟨rfl, by rw [ha, hl, hrow]; exact congrArg (commandWord · 0#2 0#2 0#8) (BitVec.eq_of_toNat_eq hop).symm⟩

/-- A word decodes to a command exactly when it is the encoding of that command, which is well-formed (R92, R94, R95). -/
theorem decode_eq_ok_iff {w : Word} {i : Instr} : decode w = .ok i ↔ i.wellFormed = true ∧ encode i = w := by
  constructor
  · intro h
    obtain ⟨h0, h1, hop⟩ := decode_eq_ok h
    obtain ⟨hi, henc⟩ := decodeOp_eq_ok hop
    exact ⟨hi, henc.trans (eq_commandWord h0 h1).symm⟩
  · rintro ⟨hi, rfl⟩
    exact decode_encode hi

/-! A word meets the conditions of R94 exactly when it is the encoding of a well-formed command. -/

/-- The commands without operands (R94 item 3). -/
def plainCommands : List Instr := [.nop, .enc, .dec, .qnt, .ilv, .ext, .deq, .clr]

/-- What R94 items 2 to 5 ask of the four fields that are not reserved. -/
def LegalFields (op : BitVec 8) (axis lvl : BitVec 2) (row : BitVec 8) : Prop :=
  op.toNat ≤ 9 ∧ (op ≠ 7#8 → op ≠ 8#8 → axis = 0#2 ∧ lvl = 0#2 ∧ row = 0#8) ∧
    (op = 7#8 → axis.toNat ≤ 2 ∧ 1 ≤ lvl.toNat ∧ (lvl = 1#2 → row.toNat ≤ 31)) ∧
    (op = 8#8 → axis.toNat ≤ 2 ∧ 1 ≤ lvl.toNat ∧ row = 0#8)

theorem legalCommandWord_iff_fields (w : Word) :
    LegalCommandWord w ↔ (rsv1Field w = 0#40 ∧ rsv0Field w = 0#4) ∧
      LegalFields (opField w) (axisField w) (lvlField w) (rowField w) := Iff.rfl

theorem legalCommandWord_commandWord_iff (op : BitVec 8) (axis lvl : BitVec 2) (row : BitVec 8) :
    LegalCommandWord (commandWord op axis lvl row) ↔ LegalFields op axis lvl row := by
  simp [legalCommandWord_iff_fields]

theorem legalCommandWord_encode {i : Instr} (hi : i.wellFormed = true) : LegalCommandWord (encode i) := by
  have haxis (a : Axis) : (axisBits a).toNat ≤ 2 := (exists_axisBits_iff _).mp ⟨a, rfl⟩
  have hlvl (l : Level) : 1 ≤ (levelBits l).toNat := (exists_levelBits_iff _).mp ⟨l, rfl⟩
  cases i with
  | nop | enc | dec | qnt | ilv | ext | deq | clr => exact (legalCommandWord_commandWord_iff ..).mpr (by simp [LegalFields])
  | lutf a l row =>
    have hrow (h : levelBits l = 1#2) : row.toNat ≤ 31 := by
      cases l with
      | one => simpa [wellFormed_lutf_iff] using hi
      | two | three => simp [levelBits] at h
    exact (legalCommandWord_commandWord_iff ..).mpr (by simpa [LegalFields, haxis, hlvl] using hrow)
  | luti a l => exact (legalCommandWord_commandWord_iff ..).mpr (by simp [LegalFields, haxis, hlvl])

theorem wellFormed_of_mem_plainCommands {i : Instr} (h : i ∈ plainCommands) : i.wellFormed = true := by
  revert i; decide

/-- Every assigned opcode but those of LUTF and LUTI is that of a command without operands (R92). -/
theorem exists_plainCommand {op : BitVec 8} (hop : op.toNat ≤ 9) (h7 : op ≠ 7#8) (h8 : op ≠ 8#8) :
    ∃ i ∈ plainCommands, encode i = commandWord op 0#2 0#2 0#8 := by
  revert op; decide

/-- Legal fields are those of a well-formed command: LUTF, LUTI, or one without operands. -/
theorem exists_encode_of_legalFields {op : BitVec 8} {axis lvl : BitVec 2} {row : BitVec 8}
    (h : LegalFields op axis lvl row) : ∃ i : Instr, i.wellFormed = true ∧ encode i = commandWord op axis lvl row := by
  obtain ⟨hop, hplain, hlutf, hluti⟩ := h
  by_cases h7 : op = 7#8
  · obtain ⟨haxis, hlvl, hrow⟩ := hlutf h7
    obtain ⟨a, rfl⟩ := (exists_axisBits_iff axis).mpr haxis
    obtain ⟨l, rfl⟩ := (exists_levelBits_iff lvl).mpr hlvl
    have hl : ¬(l = .one ∧ 31 < row.toNat) := fun ⟨hl, hr⟩ => absurd (hrow (hl ▸ rfl)) hr.not_ge
    exact ⟨.lutf a l row, (wellFormed_lutf_iff a l row).mpr hl, by rw [h7]; rfl⟩
  by_cases h8 : op = 8#8
  · obtain ⟨haxis, hlvl, rfl⟩ := hluti h8
    obtain ⟨a, rfl⟩ := (exists_axisBits_iff axis).mpr haxis
    obtain ⟨l, rfl⟩ := (exists_levelBits_iff lvl).mpr hlvl
    exact ⟨.luti a l, rfl, by rw [h8]; rfl⟩
  · obtain ⟨rfl, rfl, rfl⟩ := hplain h7 h8
    obtain ⟨i, hi, henc⟩ := exists_plainCommand hop h7 h8
    exact ⟨i, wellFormed_of_mem_plainCommands hi, henc⟩

theorem legalCommandWord_iff {w : Word} : LegalCommandWord w ↔ ∃ i, i.wellFormed = true ∧ encode i = w := by
  constructor
  · intro h
    obtain ⟨⟨h1, h0⟩, hfields⟩ := (legalCommandWord_iff_fields w).mp h
    rw [eq_commandWord h0 h1]
    exact exists_encode_of_legalFields hfields
  · rintro ⟨i, hi, rfl⟩
    exact legalCommandWord_encode hi

/-- The decoder accepts exactly the words that meet R94's conditions. -/
theorem exists_decode_eq_ok_iff {w : Word} : (∃ i, decode w = .ok i) ↔ LegalCommandWord w := by
  simp only [decode_eq_ok_iff, legalCommandWord_iff]

/-! The number of legal words: one for each well-formed command (R94). -/

/-- The nine tables of each direction (R51). -/
def tableNames : List (Axis × Level) := [.x, .y, .z] ×ˢ [.one, .two, .three]

/-- Every well-formed command, once. -/
def wellFormedCommands : List Instr :=
  plainCommands ++ tableNames.map (fun p => .luti p.1 p.2) ++
    (tableNames.sigma fun p => populatedRows p.2).map fun r => .lutf r.1.1 r.1.2 r.2

theorem mem_tableNames (p : Axis × Level) : p ∈ tableNames := by
  obtain ⟨a, l⟩ := p
  cases a <;> cases l <;> decide

theorem mem_populatedRows_iff (l : Level) (row : Chunk) : row ∈ populatedRows l ↔ populated l row = true := by
  simp only [populatedRows, populated, List.mem_map, List.mem_range, decide_eq_true_eq]
  refine ⟨?_, fun h => ⟨row.toNat, h, by simp⟩⟩
  rintro ⟨n, hn, rfl⟩
  exact (BitVec.toNat_ofNat n 8 ▸ Nat.mod_le n _).trans_lt hn

theorem chunkWidth_le (l : Level) : chunkWidth l ≤ 8 := by
  cases l <;> decide

theorem nodup_populatedRows (l : Level) : (populatedRows l).Nodup := by
  refine List.nodup_range.map_on fun m hm n hn h => ?_
  have hrows : 2 ^ chunkWidth l ≤ 2 ^ 8 := Nat.pow_le_pow_right (by decide) (chunkWidth_le l)
  rw [List.mem_range] at hm hn
  have hmod : m % 2 ^ 8 = n % 2 ^ 8 := by simpa using congrArg BitVec.toNat h
  rwa [Nat.mod_eq_of_lt (hm.trans_le hrows), Nat.mod_eq_of_lt (hn.trans_le hrows)] at hmod

theorem wellFormed_lutf_iff_populated (a : Axis) (l : Level) (row : Chunk) :
    (Instr.lutf a l row).wellFormed = true ↔ populated l row = true := by
  refine ⟨populated_of_wellFormed, fun h => ?_⟩
  cases l with
  | one => simpa [Instr.wellFormed, populated, chunkWidth, Nat.lt_succ_iff] using h
  | two | three => rfl

theorem mem_wellFormedCommands_iff (i : Instr) : i ∈ wellFormedCommands ↔ i.wellFormed = true := by
  cases i with
  | nop | enc | dec | qnt | ilv | ext | deq | clr => simp [wellFormedCommands, plainCommands, Instr.wellFormed]
  | lutf a l row =>
    simp [wellFormedCommands, plainCommands, mem_tableNames, mem_populatedRows_iff, wellFormed_lutf_iff_populated]
  | luti a l => simp [wellFormedCommands, plainCommands, mem_tableNames, Instr.wellFormed]

theorem nodup_wellFormedCommands : wellFormedCommands.Nodup := by
  have htables : tableNames.Nodup := by decide
  have hrows : (tableNames.sigma fun p => populatedRows p.2).Nodup := htables.sigma fun p => nodup_populatedRows p.2
  refine (List.Nodup.append (by decide) (htables.map ?_) ?_).append (hrows.map ?_) ?_
  · rintro ⟨a, l⟩ ⟨a', l'⟩ h
    simpa using h
  · exact List.disjoint_right.mpr (List.forall_mem_map.mpr fun p _ => by simp [plainCommands])
  · rintro ⟨⟨a, l⟩, row⟩ ⟨⟨a', l'⟩, row'⟩ h
    simpa [and_assoc] using h
  · exact List.disjoint_right.mpr (List.forall_mem_map.mpr fun r _ => by simp [plainCommands])

theorem length_wellFormedCommands : wellFormedCommands.length = 1649 := by
  simp [wellFormedCommands, plainCommands, tableNames, populatedRows, chunkWidth]

/-- Well-formed commands have different words, since each word decodes to its command. -/
theorem encode_injective {i j : Instr} (hi : i.wellFormed = true) (hj : j.wellFormed = true)
    (h : encode i = encode j) : i = j := by
  have hdec : decode (encode i) = decode (encode j) := congrArg decode h
  rw [decode_encode hi, decode_encode hj] at hdec
  exact Except.ok.inj hdec

/-! The CMD write (R90, R96). -/

/-- A step whose input is a CMD write runs its word, whatever the list. -/
theorem stepWith_cmd {program : List HostInput} {r s : State} {w : Word}
    (h : nextInput program r = some (.transaction (.wr 9#4 w), s)) : stepWith program r = runCommand w s :=
  (stepWith_of_next h).trans (hostWrite_cmd w s)

theorem runCommand_of_decode {w : Word} {i : Instr} (h : decode w = .ok i) (s : State) : runCommand w s = exec i s := by
  simp only [runCommand, h]

theorem runCommand_of_not_legal {w : Word} (h : ¬LegalCommandWord w) (s : State) :
    runCommand w s = .next (raise .ill s) := by
  rcases runCommand_cases w s with ⟨i, hd, -⟩ | ⟨e, -, hrun⟩
  · exact absurd (exists_decode_eq_ok_iff.mp ⟨i, hd⟩) h
  · exact hrun

/-- The word offered by `withFetchWord` is the next input, as a CMD write. -/
theorem nextInput_withFetchWord (program : List HostInput) (s : State) (w : Word) :
    nextInput program (s.withFetchWord 64 w.toNat) = some (.transaction (.wr 9#4 w), { s with offered := none }) := by
  have hw : BitVec.ofNat 64 (w.toNat % 2 ^ 64) = w := by simp [Nat.mod_eq_of_lt w.isLt]
  rw [State.withFetchWord, hw, nextInput_offered]

/-! The transaction word (R87). -/

section
variable (we : BitVec 1) (idx : RegIdx) (wdata : Word)

theorem weBit_append : (we ++ idx ++ wdata : BitVec 69).getLsbD 68 = we.getLsbD 0 :=
  BitVec.getLsbD_append.trans BitVec.getLsbD_append

theorem idxField_append : (we ++ idx ++ wdata : BitVec 69).extractLsb' 64 4 = idx :=
  (BitVec.extractLsb'_append_eq_of_le le_rfl).trans BitVec.extractLsb'_append_eq_right

theorem wdataField_append : (we ++ idx ++ wdata : BitVec 69).extractLsb' 0 64 = wdata :=
  BitVec.extractLsb'_append_eq_right

end

theorem transactionOfWord_of_write {w : BitVec 69} (h : w.getLsbD 68 = true) :
    transactionOfWord w = .wr (w.extractLsb' 64 4) (w.extractLsb' 0 64) := if_pos h

theorem transactionOfWord_of_read {w : BitVec 69} (h : w.getLsbD 68 = false) :
    transactionOfWord w = .rd (w.extractLsb' 64 4) := if_neg (by rw [h]; decide)

theorem transactionOfWord_transactionWord (t : Transaction) : transactionOfWord (transactionWord t) = t := by
  cases t with
  | rd idx =>
    rw [transactionWord, transactionOfWord_of_read (weBit_append 0#1 idx 0#64), idxField_append]
  | wr idx wdata =>
    rw [transactionWord, transactionOfWord_of_write (weBit_append 1#1 idx wdata), idxField_append, wdataField_append]

/-! The obligations. -/

/-- Settles O1: the encoder lays out the fields that the decoder reads back. -/
theorem decodeInvertsEncode : Obligations.DecodeInvertsEncode := fun _ hi => decode_encode hi

/-- Settles O2: every arm of the opcode map fixes all the fields of the word. -/
theorem decodedWordIsTheEncoding : Obligations.DecodedWordIsTheEncoding := fun _ _ h => decode_eq_ok_iff.mp h

/-- Settles O3: the legal words are the encodings of the well-formed commands, and these are listed, each once. -/
theorem legalWordsAreThe1649 : Obligations.LegalWordsAreThe1649 := by
  refine ⟨fun w => exists_decode_eq_ok_iff, wellFormedCommands.map encode, ?_, ?_, fun w => ?_⟩
  · refine nodup_wellFormedCommands.map_on fun i hi j hj h => ?_
    exact encode_injective ((mem_wellFormedCommands_iff i).mp hi) ((mem_wellFormedCommands_iff j).mp hj) h
  · rw [List.length_map, length_wellFormedCommands]
  · simp only [List.mem_map, mem_wellFormedCommands_iff, legalCommandWord_iff]

/-- Settles O4: each of the words is the encoding of its command, which is well-formed. -/
theorem specWordsDecode : Obligations.SpecWordsDecode := by
  simp only [Obligations.SpecWordsDecode, decode_eq_ok_iff]
  decide

/-- Settles O5: the three parts of the word are read off the layout. -/
theorem transactionWordLayout : Obligations.TransactionWordLayout :=
  ⟨transactionOfWord_transactionWord,
    fun idx wdata => ⟨rfl, weBit_append 1#1 idx wdata, idxField_append 1#1 idx wdata, wdataField_append 1#1 idx wdata⟩,
    fun idx => ⟨weBit_append 0#1 idx 0#64, idxField_append 0#1 idx 0#64, wdataField_append 0#1 idx 0#64⟩,
    fun _ => transactionOfWord_of_read⟩

/-- Settles O6: a step with a CMD write runs the word, and the word runs its command. -/
theorem stepRunsDecodedCommand : Obligations.StepRunsDecodedCommand := by
  intro s w i hd
  have hstep (program r t) (h : nextInput program r = some (.transaction (.wr 9#4 w), t)) :
      stepWith program r = exec i t := (stepWith_cmd h).trans (runCommand_of_decode hd t)
  exact ⟨fun program r => hstep program r s, fun r => hstep Config.hostProgram r s,
    hstep Config.hostProgram _ _ (nextInput_withFetchWord _ s w)⟩

/-- Settles O7: a word that does not meet R94's conditions does not decode, and ILL is bit 1 of STATUS. -/
theorem illegalWordRaisesOnlyIll : Obligations.IllegalWordRaisesOnlyIll :=
  fun s _ hw _ _ h => (stepWith_cmd h).trans (runCommand_of_not_legal hw s)

/-- Settles O44: the row is not populated, and what decodes is well-formed. -/
theorem unpopulatedLutfTermRaisesIll : Obligations.UnpopulatedLutfTermRaisesIll := by
  intro s a row hrow
  have hp : populated .one row = false := decide_eq_false (by simp only [chunkWidth]; omega)
  refine ⟨(CommandResult.lutfIll a .one row hp).exec_eq, fun w hd => ?_⟩
  obtain ⟨hi, -⟩ := decode_eq_ok_iff.mp hd
  simp [populated_of_wellFormed hi] at hp

end Sys2Proof

/-! PROOFS. The lookup tables (spec/40_lookup_tables.md R121 to R131). The idea: a table's word is told by its bits. Bit k of a
row at axis a and level l stands at key bit 3 (qsh(l) + k) + a, and this position names the triple (a, l, k). So a row can be
gathered from its word again, the words of a table are those inside its mask, and an inverse lookup is this gathering. -/

namespace Sys2Proof.Machine

/-! The spreading function (R121). -/

/-- The sum of bits set three positions apart has each bit at its position and no other bit, by induction from the lowest bit:
the later bits are the same sum, moved up by three. -/
theorem testBit_sum_shiftLeft_three_mul (b : Nat → Bool) (n j : Nat) :
    ((List.range n).map fun k => (b k).toNat <<< (3 * k)).sum.testBit j =
      (decide (j % 3 = 0) && decide (j / 3 < n) && b (j / 3)) := by
  induction n generalizing b j with
  | zero => simp
  | succ n ih =>
    have hterm (k : Nat) : (b (k + 1)).toNat <<< (3 * (k + 1)) = 2 ^ 3 * (b (k + 1)).toNat <<< (3 * k) := by
      simp only [Nat.shiftLeft_eq]
      ring
    have hsum : ((List.range (n + 1)).map fun k => (b k).toNat <<< (3 * k)).sum =
        2 ^ 3 * ((List.range n).map fun k => (b (k + 1)).toNat <<< (3 * k)).sum + (b 0).toNat := by
      simp [List.range_succ_eq_map, Function.comp_def, hterm, List.sum_map_mul_left, add_comm]
    rw [hsum, Nat.testBit_two_pow_mul_add _ ((b 0).toNat_lt.trans (by decide)), ih]
    split
    next hj =>
      rw [Nat.testBit_bool_toNat]
      obtain rfl | h0 := Nat.eq_zero_or_pos j
      · simp
      · simp [Nat.mod_eq_of_lt hj, h0.ne']
    next hj =>
      obtain ⟨i, rfl⟩ := Nat.exists_eq_add_of_le' (Nat.le_of_not_lt hj)
      simp

theorem getLsbD_spread (c : Chunk) (j : Nat) :
    (spread c).getLsbD j = (decide (j % 3 = 0) && c.getLsbD (j / 3)) := by
  rw [spread, BitVec.getLsbD_ofNat, testBit_sum_shiftLeft_three_mul, Bool.eq_iff_iff]
  simp only [Bool.and_eq_true, decide_eq_true_eq]
  constructor
  · rintro ⟨-, ⟨hmod, -⟩, hc⟩
    exact ⟨hmod, hc⟩
  · rintro ⟨hmod, hc⟩
    have hlt : j / 3 < 8 := BitVec.lt_of_getLsbD hc
    exact ⟨by omega, ⟨hmod, hlt⟩, hc⟩

theorem spread_or (c d : Chunk) : spread (c ||| d) = spread c ||| spread d :=
  BitVec.eq_of_getLsbD_eq fun j _ => by simp [getLsbD_spread, Bool.and_or_distrib_left]

theorem spread_and (c d : Chunk) : spread (c &&& d) = spread c &&& spread d :=
  BitVec.eq_of_getLsbD_eq fun j _ => by
    simp [getLsbD_spread, Bool.and_left_comm, Bool.and_assoc]

/-! Where a row's bits stand in the key (R15, R123, R125). -/

/-- The key bit where bit k of a row of table (a, l) stands. -/
def keyBit (a : Axis) (l : Level) (k : Nat) : Nat := levelBase l + 3 * k + axisOffset a

theorem levelBase_eq (l : Level) : levelBase l = 3 * chunkShift l := by cases l <;> rfl

theorem keyBit_eq (a : Axis) (l : Level) (k : Nat) : keyBit a l k = 3 * (chunkShift l + k) + axisOffset a := by
  rw [keyBit, levelBase_eq]
  ring

theorem axisOffset_lt (a : Axis) : axisOffset a < 3 := by cases a <;> decide

theorem axisOffset_injective {a a' : Axis} (h : axisOffset a = axisOffset a') : a = a' := by
  revert h; cases a <;> cases a' <;> decide

theorem exists_axisOffset {n : Nat} (h : n < 3) : ∃ a, n = axisOffset a := by
  obtain rfl | rfl | rfl : n = 0 ∨ n = 1 ∨ n = 2 := by omega
  · exact ⟨.x, rfl⟩
  · exact ⟨.y, rfl⟩
  · exact ⟨.z, rfl⟩

theorem chunkShift_add_lt {l : Level} {k : Nat} (hk : k < chunkWidth l) : chunkShift l + k < 21 := by
  cases l <;> simp only [chunkShift, chunkWidth] at * <;> omega

/-- The chunks do not overlap inside the quantized integer. -/
theorem chunkShift_add_injective {l l' : Level} {k k' : Nat} (hk : k < chunkWidth l) (hk' : k' < chunkWidth l')
    (h : chunkShift l + k = chunkShift l' + k') : l = l' ∧ k = k' := by
  obtain rfl : l = l' := by
    cases l <;> cases l' <;> simp only [chunkShift, chunkWidth, reduceCtorEq] at * <;> omega
  exact ⟨rfl, Nat.add_left_cancel h⟩

/-- The chunks cover the quantized integer. -/
theorem exists_chunkShift_add {n : Nat} (h : n < 21) : ∃ l k, k < chunkWidth l ∧ n = chunkShift l + k := by
  obtain h3 | h2 | h1 : n < 8 ∨ (8 ≤ n ∧ n < 16) ∨ 16 ≤ n := by omega
  · exact ⟨.three, n, h3, by simp [chunkShift]⟩
  · exact ⟨.two, n - 8, by simp only [chunkWidth]; omega, by simp only [chunkShift]; omega⟩
  · exact ⟨.one, n - 16, by simp only [chunkWidth]; omega, by simp only [chunkShift]; omega⟩

theorem keyBit_lt (a : Axis) {l : Level} {k : Nat} (hk : k < chunkWidth l) : keyBit a l k < 63 := by
  have hn := chunkShift_add_lt hk
  have ha := axisOffset_lt a
  rw [keyBit_eq]
  omega

/-- A key bit belongs to one axis, one level and one bit of the row. -/
theorem keyBit_injective {a a' : Axis} {l l' : Level} {k k' : Nat} (hk : k < chunkWidth l) (hk' : k' < chunkWidth l')
    (h : keyBit a l k = keyBit a' l' k') : a = a' ∧ l = l' ∧ k = k' := by
  have ha := axisOffset_lt a
  have ha' := axisOffset_lt a'
  rw [keyBit_eq, keyBit_eq] at h
  exact ⟨axisOffset_injective (by omega), chunkShift_add_injective hk hk' (by omega)⟩

theorem exists_keyBit {j : Nat} (hj : j < 63) : ∃ a l k, k < chunkWidth l ∧ j = keyBit a l k := by
  obtain ⟨a, ha⟩ := exists_axisOffset (Nat.mod_lt j (by decide : 3 > 0))
  obtain ⟨l, k, hk, hn⟩ := exists_chunkShift_add (n := j / 3) (by omega)
  exact ⟨a, l, k, hk, by rw [keyBit_eq]; omega⟩

/-! Forward words (R122, R123). -/

/-- A row is populated when its bits lie inside the chunk width. -/
theorem populated_iff_bits (l : Level) (c : Chunk) :
    populated l c = true ↔ ∀ k, c.getLsbD k = true → k < chunkWidth l := by
  rw [populated, decide_eq_true_eq]
  constructor
  · intro hc k hk
    have hle : 2 ^ k ≤ c.toNat := Nat.ge_two_pow_of_testBit hk
    exact (Nat.pow_lt_pow_iff_right (by decide)).mp (hle.trans_lt hc)
  · intro h
    refine Nat.lt_pow_two_of_testBit _ fun k hk => ?_
    exact Bool.eq_false_iff.mpr fun hbit => absurd (h k hbit) (Nat.not_lt.mpr hk)

/-- The bits of any row's word; those of an unpopulated row that fall above bit 62 are lost. -/
theorem getLsbD_forwardWord_iff (a : Axis) (l : Level) (c : Chunk) (j : Nat) :
    (forwardWord a l c).getLsbD j = true ↔ j < 63 ∧ ∃ k, c.getLsbD k = true ∧ j = keyBit a l k := by
  simp only [forwardWord, BitVec.getLsbD_shiftLeft, BitVec.getLsbD_setWidth, getLsbD_spread, Bool.and_eq_true,
    Bool.not_eq_true', decide_eq_true_eq, decide_eq_false_iff_not]
  constructor
  · rintro ⟨⟨hj, hle⟩, -, hmod, hc⟩
    exact ⟨hj, _, hc, by rw [keyBit]; omega⟩
  · rintro ⟨hj, k, hc, rfl⟩
    have hsub : keyBit a l k - (levelBase l + axisOffset a) = 3 * k := by rw [keyBit]; omega
    rw [hsub]
    exact ⟨⟨hj, by rw [keyBit]; omega⟩, by rw [keyBit] at hj; omega, by omega, by simpa using hc⟩

/-- No bit of a populated row is lost. -/
theorem getLsbD_forwardWord_iff_of_populated (a : Axis) {l : Level} {c : Chunk} (hc : populated l c = true) (j : Nat) :
    (forwardWord a l c).getLsbD j = true ↔ ∃ k, k < 8 ∧ c.getLsbD k = true ∧ j = keyBit a l k := by
  rw [getLsbD_forwardWord_iff]
  constructor
  · rintro ⟨-, k, hk, rfl⟩
    exact ⟨k, BitVec.lt_of_getLsbD hk, hk, rfl⟩
  · rintro ⟨k, -, hk, rfl⟩
    exact ⟨keyBit_lt a ((populated_iff_bits l c).mp hc k hk), k, hk, rfl⟩

/-- S(c) of a populated row fits below bit 63 after the shift. -/
theorem spread_lt_of_populated (a : Axis) {l : Level} {c : Chunk} (hc : populated l c = true) :
    (spread c).toNat < 2 ^ (63 - (levelBase l + axisOffset a)) := by
  refine Nat.lt_pow_two_of_testBit _ fun j hj => Bool.eq_false_iff.mpr fun hbit => ?_
  obtain ⟨hmod, hk⟩ : j % 3 = 0 ∧ c.getLsbD (j / 3) = true := by
    simpa using (getLsbD_spread c j).symm.trans hbit
  have hpos := keyBit_lt a ((populated_iff_bits l c).mp hc _ hk)
  rw [keyBit] at hpos
  omega

theorem toNat_forwardWord (a : Axis) {l : Level} {c : Chunk} (hc : populated l c = true) :
    (forwardWord a l c).toNat = (spread c).toNat * 2 ^ (levelBase l + axisOffset a) := by
  have hlow : (spread c).toNat < 2 ^ 63 := (spread c).isLt.trans (by decide)
  have hbase : levelBase l + axisOffset a ≤ 63 := by cases l <;> cases a <;> decide
  have hfits : (spread c).toNat * 2 ^ (levelBase l + axisOffset a) < 2 ^ 63 := by
    calc _ < 2 ^ (63 - (levelBase l + axisOffset a)) * 2 ^ (levelBase l + axisOffset a) :=
          Nat.mul_lt_mul_of_pos_right (spread_lt_of_populated a hc) (Nat.two_pow_pos _)
      _ = 2 ^ 63 := by rw [← pow_add, Nat.sub_add_cancel hbase]
  rw [forwardWord, BitVec.toNat_shiftLeft, BitVec.toNat_setWidth, Nat.mod_eq_of_lt hlow, Nat.shiftLeft_eq,
    Nat.mod_eq_of_lt hfits]

/-! Masks (R124, R125). -/

/-- Word w has no bit outside mask m. -/
theorem and_not_eq_zero_iff (w m : KeyWord) : w &&& ~~~ m = 0#63 ↔ w &&& m = w := by
  simp only [BitVec.eq_of_getLsbD_eq_iff, BitVec.getLsbD_and, BitVec.getLsbD_not, BitVec.getLsbD_zero]
  refine forall₂_congr fun j hj => ?_
  cases m.getLsbD j <;> simp [hj, @eq_comm Bool false]

theorem getLsbD_lastRow (l : Level) (k : Nat) :
    (BitVec.ofNat 8 (2 ^ chunkWidth l - 1)).getLsbD k = decide (k < chunkWidth l) := by
  have hw := chunkWidth_le l
  rw [BitVec.getLsbD_ofNat, Nat.testBit_two_pow_sub_one, ← Bool.decide_and, decide_eq_decide]
  omega

theorem getLsbD_keyMask_iff (a : Axis) (l : Level) (j : Nat) :
    (keyMask a l).getLsbD j = true ↔ ∃ k, k < chunkWidth l ∧ j = keyBit a l k := by
  simp only [keyMask, getLsbD_forwardWord_iff, getLsbD_lastRow, decide_eq_true_eq]
  constructor
  · exact And.right
  · rintro ⟨k, hk, rfl⟩
    exact ⟨keyBit_lt a hk, k, hk, rfl⟩

theorem keyMask_disjoint {a a' : Axis} {l l' : Level} (h : (a, l) ≠ (a', l')) : keyMask a l &&& keyMask a' l' = 0#63 := by
  refine BitVec.eq_of_getLsbD_eq fun j _ => ?_
  rw [BitVec.getLsbD_zero, BitVec.getLsbD_and, Bool.eq_false_iff]
  intro hbit
  obtain ⟨hm, hm'⟩ := Bool.and_eq_true_iff.mp hbit
  obtain ⟨k, hk, rfl⟩ := (getLsbD_keyMask_iff a l j).mp hm
  obtain ⟨k', hk', e⟩ := (getLsbD_keyMask_iff a' l' _).mp hm'
  obtain ⟨rfl, rfl, -⟩ := keyBit_injective hk hk' e
  exact h rfl

/-! Inverse lookups (R126 to R128). -/

/-- The row of table (a, l) whose bits the word has at that table's positions. -/
def gatherRow (a : Axis) (l : Level) (w : KeyWord) : Chunk :=
  BitVec.ofFnLE fun k => decide (k.val < chunkWidth l) && w.getLsbD (keyBit a l k)

@[simp] theorem getLsbD_gatherRow (a : Axis) (l : Level) (w : KeyWord) (k : Nat) :
    (gatherRow a l w).getLsbD k = (decide (k < chunkWidth l) && w.getLsbD (keyBit a l k)) := by
  rw [gatherRow, BitVec.getLsbD_ofFnLE]
  split
  next => rfl
  next hk =>
    have hk' : ¬k < chunkWidth l := fun h => hk (h.trans_le (chunkWidth_le l))
    simp [hk']

theorem populated_gatherRow (a : Axis) (l : Level) (w : KeyWord) : populated l (gatherRow a l w) = true :=
  (populated_iff_bits l _).mpr fun k hk => by
    obtain ⟨hk, -⟩ : k < chunkWidth l ∧ w.getLsbD (keyBit a l k) = true := by simpa using hk
    exact hk

/-- Gathering and spreading again keeps the part of a word inside the mask. -/
theorem forwardWord_gatherRow (a : Axis) (l : Level) (w : KeyWord) :
    forwardWord a l (gatherRow a l w) = w &&& keyMask a l := by
  refine BitVec.eq_of_getLsbD_eq fun j hj => Bool.eq_iff_iff.mpr ?_
  simp only [getLsbD_forwardWord_iff, getLsbD_gatherRow, BitVec.getLsbD_and, Bool.and_eq_true, getLsbD_keyMask_iff,
    decide_eq_true_eq]
  constructor
  · rintro ⟨-, k, ⟨hk, hw⟩, rfl⟩
    exact ⟨hw, k, hk, rfl⟩
  · rintro ⟨hw, k, hk, rfl⟩
    exact ⟨hj, k, ⟨hk, hw⟩, rfl⟩

/-- A populated row is gathered from its own word. -/
theorem gatherRow_forwardWord (a : Axis) {l : Level} {c : Chunk} (hc : populated l c = true) :
    gatherRow a l (forwardWord a l c) = c := by
  refine BitVec.eq_of_getLsbD_eq fun k _ => Bool.eq_iff_iff.mpr ?_
  have hwidth := (populated_iff_bits l c).mp hc
  simp only [getLsbD_gatherRow, getLsbD_forwardWord_iff, Bool.and_eq_true, decide_eq_true_eq]
  constructor
  · rintro ⟨hk, -, k', hk', e⟩
    obtain ⟨-, -, rfl⟩ := keyBit_injective hk (hwidth k' hk') e
    exact hk'
  · exact fun hk => ⟨hwidth k hk, keyBit_lt a (hwidth k hk), k, hk, rfl⟩

theorem forwardWord_injective (a : Axis) {l : Level} {c d : Chunk} (hc : populated l c = true) (hd : populated l d = true)
    (h : forwardWord a l c = forwardWord a l d) : c = d := by
  rw [← gatherRow_forwardWord a hc, h, gatherRow_forwardWord a hd]

theorem romInverse_eq_none_iff (a : Axis) (l : Level) (w : KeyWord) :
    romInverse a l w = none ↔ ∀ c, populated l c = true → forwardWord a l c ≠ w := by
  simp [romInverse, mem_populatedRows_iff]

theorem romInverse_eq_some_iff (a : Axis) (l : Level) (w : KeyWord) (c : Chunk) :
    romInverse a l w = some c ↔ populated l c = true ∧ forwardWord a l c = w := by
  constructor
  · intro h
    obtain ⟨hmem, hw⟩ := romInverse_some h
    exact ⟨(mem_populatedRows_iff l c).mp hmem, hw⟩
  · rintro ⟨hc, rfl⟩
    cases h : romInverse a l (forwardWord a l c) with
    | none => exact absurd rfl ((romInverse_eq_none_iff a l _).mp h c hc)
    | some d =>
      obtain ⟨hmem, hw⟩ := romInverse_some h
      rw [forwardWord_injective a ((mem_populatedRows_iff l d).mp hmem) hc hw]

/-- The lookup of a masked word hits the row gathered from the word (R128). -/
theorem romInverse_and_keyMask (a : Axis) (l : Level) (w : KeyWord) :
    romInverse a l (w &&& keyMask a l) = some (gatherRow a l w) :=
  (romInverse_eq_some_iff a l _ _).mpr ⟨populated_gatherRow a l w, forwardWord_gatherRow a l w⟩

/-- A word inside the mask is looked up by gathering its row. -/
theorem romInverse_of_inside {a : Axis} {l : Level} {w : KeyWord} (h : w &&& ~~~ keyMask a l = 0#63) :
    romInverse a l w = some (gatherRow a l w) := by
  conv_lhs => rw [← (and_not_eq_zero_iff w _).mp h]
  exact romInverse_and_keyMask a l w

/-- Only words inside the mask are tabulated, each with its gathered row (R127). -/
theorem romInverse_some_inside {a : Axis} {l : Level} {w : KeyWord} {c : Chunk} (h : romInverse a l w = some c) :
    w &&& ~~~ keyMask a l = 0#63 ∧ c = gatherRow a l w := by
  obtain ⟨hc, rfl⟩ := (romInverse_eq_some_iff a l w c).mp h
  have hrow := gatherRow_forwardWord a hc
  exact ⟨(and_not_eq_zero_iff _ _).mpr (by rw [← forwardWord_gatherRow, hrow]), hrow.symm⟩

theorem romInverse_of_outside {a : Axis} {l : Level} {w : KeyWord} (h : w &&& ~~~ keyMask a l ≠ 0#63) :
    romInverse a l w = none :=
  Option.eq_none_iff_forall_ne_some.mpr fun _ hc => h (romInverse_some_inside hc).1

theorem toNat_lt_of_populated {l : Level} {c : Chunk} (h : populated l c = true) : c.toNat < 2 ^ chunkWidth l :=
  of_decide_eq_true h

/-! The commands LUTF and LUTI (R130, R131). -/

/-- Widening to a register adds no bit. -/
theorem getLsbD_setWidth_keyWord (w : KeyWord) (j : Nat) : (w.setWidth 64).getLsbD j = w.getLsbD j := by
  rw [BitVec.getLsbD_setWidth, Bool.and_eq_right_iff_imp, decide_eq_true_eq]
  exact fun h => (BitVec.lt_of_getLsbD h).trans (by decide)

/-- The bits of a row gathered from KEY[62:0] are bits of KEY. -/
theorem getLsbD_gatherRow_keyOperand (a : Axis) {l : Level} (s : State) {k : Nat} (hk : k < chunkWidth l) :
    (gatherRow a l (keyOperand s)).getLsbD k = s.key.getLsbD (keyBit a l k) := by
  simp [keyOperand, hk, keyBit_lt a hk]

/-- The notice of a LUTI is bit 3 of STATUS (R86, R183). -/
theorem noticeWhen_key63_eq (s : State) : noticeWhen (key63 s) .key63 s =
    { s with status := if s.key.getLsbD 63 then s.status ||| 0x08#5 else s.status } := by
  rw [key63]
  cases s.key.getLsbD 63 <;> rfl

/-- The fault of a LUTI is bit 2 of STATUS, beside the notice (R86, R131). -/
theorem raise_miss_noticeWhen_key63_eq (s : State) : raise .miss (noticeWhen (key63 s) .key63 s) =
    { s with status := if s.key.getLsbD 63 then s.status ||| 0x0C#5 else s.status ||| 0x04#5 } := by
  rw [noticeWhen_key63_eq]
  cases s.key.getLsbD 63 with
  | true => simp [raise, setFlag, flagMask, flagBit, BitVec.or_assoc]
  | false => rfl

end Sys2Proof.Machine

namespace Sys2Proof

open Sys2Proof.Machine

/-- Settles O17, from the bits of S(c). -/
theorem spreadInsertsTwoZeroBits : Obligations.SpreadInsertsTwoZeroBits :=
  ⟨getLsbD_spread, fun c d => ⟨spread_or c d, (spread_and c d).symm⟩, by decide⟩

/-- Settles O18: a populated row's bits all stand below key bit 63. -/
theorem forwardWordBits : Obligations.ForwardWordBits := by
  refine ⟨⟨rfl, rfl, rfl⟩, ⟨rfl, rfl, rfl⟩, fun row => ⟨?_, ?_, ?_⟩, fun a l c => ⟨fun hc => ?_, fun hc => ?_⟩⟩
  · exact decide_eq_true row.isLt
  · exact decide_eq_true row.isLt
  · simp [populated, chunkWidth, Nat.lt_succ_iff]
  · simp [romForward, hc]
  · exact ⟨forwardWord a l c, by simp [romForward, hc], toNat_forwardWord a hc, getLsbD_forwardWord_iff_of_populated a hc⟩

/-- Settles O20: the populated row with a given word is unique. -/
theorem inverseTableSwapsForwardPairs : Obligations.InverseTableSwapsForwardPairs :=
  fun a l w => ⟨romInverse_eq_some_iff a l w, romInverse_eq_none_iff a l w⟩

/-- Settles O21: a lookup gathers the row of a word inside the mask. -/
theorem inverseDomainIsTheMask : Obligations.InverseDomainIsTheMask := by
  refine fun a l => ⟨fun c d => forwardWord_injective a, fun w => ⟨?_, ?_⟩, fun w c h => ?_⟩
  · rintro ⟨c, hc⟩
    exact (romInverse_some_inside hc).1
  · exact fun h => ⟨_, romInverse_of_inside h⟩
  · obtain ⟨-, rfl⟩ := romInverse_some_inside h
    exact ⟨fun k hk => by simp [hk, keyBit], toNat_lt_of_populated (populated_gatherRow a l w)⟩

/-- Settles O22: the masked word is that of the gathered row. -/
theorem maskedLookupNeverMisses : Obligations.MaskedLookupNeverMisses :=
  fun k a l => ⟨gatherRow a l k, romInverse_and_keyMask a l k, fun j hj => by simp [hj, keyBit]⟩

/-- Settles O43: the row is populated, so the forward word goes to ROMD. -/
theorem lutfReadsTheForwardWord : Obligations.LutfReadsTheForwardWord := by
  intro s a l row hrow
  have hp := populated_of_wellFormed hrow
  refine ⟨_, (CommandResult.lutf a l row hp).exec_eq, fun j => ?_⟩
  rw [getLsbD_setWidth_keyWord]
  exact getLsbD_forwardWord_iff_of_populated a hp j

/-- Settles O45: inside the mask the lookup hits, outside it misses, and KEY63 is raised before either. -/
theorem lutiHitsExactlyInsideTheMask : Obligations.LutiHitsExactlyInsideTheMask := by
  refine fun s a l => ⟨fun hin => ?_, fun hout => ?_⟩
  · refine ⟨gatherRow a l (keyOperand s), ?_, fun k hk => getLsbD_gatherRow_keyOperand a s hk,
      toNat_lt_of_populated (populated_gatherRow a l _)⟩
    rw [(CommandResult.luti a l _ (romInverse_of_inside hin)).exec_eq, noticeWhen_key63_eq]
    rfl
  · rw [(CommandResult.lutiMiss a l (romInverse_of_outside hout)).exec_eq, raise_miss_noticeWhen_key63_eq]

/-- Settles O19: the position of a key bit names its axis and level. -/
theorem masksPartitionTheKey : Obligations.MasksPartitionTheKey := by
  refine ⟨by decide, fun a l a' l' => keyMask_disjoint, fun j hj => ?_⟩
  obtain ⟨a, l, k, hk, rfl⟩ := exists_keyBit hj
  refine ⟨a, l, (getLsbD_keyMask_iff a l _).mpr ⟨k, hk, rfl⟩, fun a' l' hm => ?_⟩
  obtain ⟨k', hk', e⟩ := (getLsbD_keyMask_iff a' l' _).mp hm
  obtain ⟨ha, hl, -⟩ := keyBit_injective hk' hk e.symm
  exact ⟨ha, hl⟩

end Sys2Proof

/-! PROOFS. The interleaver (spec/41_encoder.md R156 to R159). The idea: bit n of a quantized integer lies in one chunk, and the
forward table of that chunk puts it at key bit 3n + a. So a key is told by its bits as the nine masks tell a word: the nine
contributions do not overlap, and EXTRACT, which gathers the chunks again, is the two-sided inverse. -/

namespace Sys2Proof.Machine

/-! The chunks of a quantized integer (R156). -/

theorem getLsbD_chunkOf (l : Level) (q : QInt) (k : Nat) :
    (chunkOf l q).getLsbD k = (decide (k < chunkWidth l) && q.getLsbD (chunkShift l + k)) := by
  cases l with
  | one =>
    rw [chunkOf, BitVec.getLsbD_setWidth, BitVec.getLsbD_extractLsb']
    by_cases hk : k < 5
    · simp [chunkWidth, chunkShift, hk, hk.trans (by decide : 5 < 8)]
    · simp [chunkWidth, hk]
  | two | three => exact BitVec.getLsbD_extractLsb' _ 8 q k

/-- Bit k of a chunk stands at its key bit, and the chunk's forward word has no other bit. -/
theorem getLsbD_forwardWord_chunkOf_iff (a : Axis) (l : Level) (q : QInt) (j : Nat) :
    (forwardWord a l (chunkOf l q)).getLsbD j = true ↔
      ∃ k, k < chunkWidth l ∧ q.getLsbD (chunkShift l + k) = true ∧ j = keyBit a l k := by
  simp only [getLsbD_forwardWord_iff, getLsbD_chunkOf, Bool.and_eq_true, decide_eq_true_eq, and_assoc]
  constructor
  · exact And.right
  · rintro ⟨k, hk, hq, rfl⟩
    exact ⟨keyBit_lt a hk, k, hk, hq, rfl⟩

/-! The bits of a key (R158). -/

/-- A key position names its axis and the bit of the quantized integer. -/
theorem three_mul_add_axisOffset_injective {a a' : Axis} {n n' : Nat}
    (h : 3 * n + axisOffset a = 3 * n' + axisOffset a') : a = a' ∧ n = n' := by
  have ha := axisOffset_lt a
  have ha' := axisOffset_lt a'
  exact ⟨axisOffset_injective (by omega), by omega⟩

theorem exists_three_mul_add_axisOffset (j : Nat) : ∃ a, j = 3 * (j / 3) + axisOffset a := by
  obtain ⟨a, ha⟩ := exists_axisOffset (Nat.mod_lt j (by decide : 3 > 0))
  exact ⟨a, by omega⟩

theorem getLsbD_axisContribution_iff (a : Axis) (q : QInt) (j : Nat) :
    (axisContribution a q).getLsbD j = true ↔ ∃ n, q.getLsbD n = true ∧ j = 3 * n + axisOffset a := by
  have hlevels : (axisContribution a q).getLsbD j = true ↔
      ∃ l, (forwardWord a l (chunkOf l q)).getLsbD j = true := by
    simp only [axisContribution, BitVec.getLsbD_or, Bool.or_eq_true]
    refine ⟨?_, fun ⟨l, hl⟩ => ?_⟩
    · rintro ((h | h) | h)
      exacts [⟨_, h⟩, ⟨_, h⟩, ⟨_, h⟩]
    · cases l <;> simp [hl]
  simp only [hlevels, getLsbD_forwardWord_chunkOf_iff, keyBit_eq]
  constructor
  · rintro ⟨l, k, -, hq, rfl⟩
    exact ⟨_, hq, rfl⟩
  · rintro ⟨n, hq, rfl⟩
    obtain ⟨l, k, hk, rfl⟩ := exists_chunkShift_add (BitVec.lt_of_getLsbD hq)
    exact ⟨l, k, hk, hq, rfl⟩

/-- Of three quantized integers, given axis by axis, that of one axis. -/
def perAxis (qx qy qz : QInt) : Axis → QInt
  | .x => qx
  | .y => qy
  | .z => qz

theorem qReg_eq_perAxis (a : Axis) (s : State) : qReg a s = perAxis s.qx s.qy s.qz a := by cases a <;> rfl

/-- The closed form of INTERLEAVE: key bit 3n + a is bit n of axis a (R158). -/
theorem getLsbD_interleave (qx qy qz : QInt) (a : Axis) (n : Nat) :
    (interleave qx qy qz).getLsbD (3 * n + axisOffset a) = (perAxis qx qy qz a).getLsbD n := by
  have hcontribution (b : Axis) (q : QInt) :
      (axisContribution b q).getLsbD (3 * n + axisOffset a) = (decide (b = a) && q.getLsbD n) := by
    rw [Bool.eq_iff_iff, getLsbD_axisContribution_iff, Bool.and_eq_true, decide_eq_true_eq]
    constructor
    · rintro ⟨m, hq, e⟩
      obtain ⟨rfl, rfl⟩ := three_mul_add_axisOffset_injective e
      exact ⟨rfl, hq⟩
    · rintro ⟨rfl, hq⟩
      exact ⟨n, hq, rfl⟩
  simp only [interleave, BitVec.getLsbD_or, hcontribution]
  cases a <;> simp [perAxis]

/-! The inverse of INTERLEAVE (R182). -/

/-- The masked lookup of EXTRACT gathers the row (R128). -/
theorem fragmentChunk_eq_gatherRow (a : Axis) (l : Level) (k : KeyWord) : fragmentChunk a l k = gatherRow a l k := by
  rw [fragmentChunk, romInverse_and_keyMask, Option.getD_some]

/-- The closed form of EXTRACT: bit n of axis a is key bit 3n + a (R182). -/
theorem getLsbD_extractAxis (a : Axis) (k : KeyWord) {n : Nat} (hn : n < 21) :
    (extractAxis a k).getLsbD n = k.getLsbD (3 * n + axisOffset a) := by
  have hrow (l : Level) (i : Nat) : (gatherRow a l k).getLsbD i =
      (decide (i < chunkWidth l) && k.getLsbD (3 * (chunkShift l + i) + axisOffset a)) := by
    rw [getLsbD_gatherRow, keyBit_eq]
  simp only [extractAxis, fragmentChunk_eq_gatherRow, BitVec.getLsbD_or, BitVec.getLsbD_shiftLeft,
    BitVec.getLsbD_setWidth, BitVec.getLsbD_extractLsb', hrow, chunkWidth, chunkShift]
  obtain h3 | h2 | h1 : n < 8 ∨ (8 ≤ n ∧ n < 16) ∨ 16 ≤ n := by omega
  · simp [hn, h3, h3.trans (by decide : 8 < 16)]
  · obtain ⟨i, rfl⟩ := Nat.exists_eq_add_of_le h2.1
    have hi : i < 8 := by omega
    simp [h2, hi, hi.trans (by decide : 8 < 21), hn]
  · obtain ⟨i, rfl⟩ := Nat.exists_eq_add_of_le h1
    have hi : i < 5 := by omega
    simp [hi, hi.trans (by decide : 5 < 21), hn, show ¬16 + i - 8 < 8 by omega]

theorem extractAxis_interleave (a : Axis) (qx qy qz : QInt) :
    extractAxis a (interleave qx qy qz) = perAxis qx qy qz a :=
  BitVec.eq_of_getLsbD_eq fun n hn => by rw [getLsbD_extractAxis a _ hn, getLsbD_interleave]

theorem interleave_extractAxis (k : KeyWord) :
    interleave (extractAxis .x k) (extractAxis .y k) (extractAxis .z k) = k := by
  refine BitVec.eq_of_getLsbD_eq fun j hj => ?_
  obtain ⟨a, ha⟩ := exists_three_mul_add_axisOffset j
  have haxis : perAxis (extractAxis .x k) (extractAxis .y k) (extractAxis .z k) a = extractAxis a k := by
    cases a <;> rfl
  rw [ha, getLsbD_interleave, haxis, getLsbD_extractAxis a k (by omega)]

theorem interleave_bijective : Function.Bijective fun q : QInt × QInt × QInt => interleave q.1 q.2.1 q.2.2 := by
  refine Function.bijective_iff_has_inverse.mpr
    ⟨fun k => (extractAxis .x k, extractAxis .y k, extractAxis .z k), fun ⟨qx, qy, qz⟩ => ?_, interleave_extractAxis⟩
  simp only [extractAxis_interleave, perAxis]

/-! The contributions never overlap, so their OR is their sum (R125, R158). -/

theorem toNat_or_of_disjoint {u v : KeyWord} (h : u &&& v = 0#63) : (u ||| v).toNat = u.toNat + v.toNat := by
  rw [← BitVec.add_eq_or_of_and_eq_zero u v h, BitVec.toNat_add_of_and_eq_zero h]

theorem forwardWord_chunkOf_disjoint {a a' : Axis} {l l' : Level} (h : (a, l) ≠ (a', l')) (q q' : QInt) :
    forwardWord a l (chunkOf l q) &&& forwardWord a' l' (chunkOf l' q') = 0#63 := by
  have hinside (a : Axis) (l : Level) (q : QInt) :
      forwardWord a l (chunkOf l q) &&& keyMask a l = forwardWord a l (chunkOf l q) := by
    rw [← forwardWord_gatherRow, gatherRow_forwardWord a (populated_chunkOf l q)]
  rw [← hinside a l, ← hinside a' l', BitVec.and_assoc, ← BitVec.and_assoc (keyMask a l), BitVec.and_comm (keyMask a l),
    BitVec.and_assoc, keyMask_disjoint h, BitVec.and_zero, BitVec.and_zero]

theorem axisContribution_disjoint {a a' : Axis} (h : a ≠ a') (q q' : QInt) :
    axisContribution a q &&& axisContribution a' q' = 0#63 := by
  refine BitVec.eq_of_getLsbD_eq fun j _ => ?_
  rw [BitVec.getLsbD_zero, BitVec.getLsbD_and, Bool.eq_false_iff]
  intro hbit
  obtain ⟨hc, hc'⟩ := Bool.and_eq_true_iff.mp hbit
  obtain ⟨n, -, rfl⟩ := (getLsbD_axisContribution_iff a q j).mp hc
  obtain ⟨n', -, e⟩ := (getLsbD_axisContribution_iff a' q' _).mp hc'
  exact h (three_mul_add_axisOffset_injective e).1

theorem toNat_axisContribution (a : Axis) (q : QInt) : (axisContribution a q).toNat =
    (forwardWord a .three (chunkOf .three q)).toNat + (forwardWord a .two (chunkOf .two q)).toNat +
      (forwardWord a .one (chunkOf .one q)).toNat := by
  have hdisjoint {l l' : Level} (h : l ≠ l') :
      forwardWord a l (chunkOf l q) &&& forwardWord a l' (chunkOf l' q) = 0#63 :=
    forwardWord_chunkOf_disjoint (by simp [h]) q q
  rw [axisContribution, toNat_or_of_disjoint, toNat_or_of_disjoint (hdisjoint (by decide))]
  rw [BitVec.and_or_distrib_right, hdisjoint (by decide), hdisjoint (by decide), BitVec.or_zero]

theorem toNat_interleave (qx qy qz : QInt) : (interleave qx qy qz).toNat =
    (axisContribution .x qx).toNat + (axisContribution .y qy).toNat + (axisContribution .z qz).toNat := by
  rw [interleave, toNat_or_of_disjoint, toNat_or_of_disjoint (axisContribution_disjoint (by decide) qx qy)]
  rw [BitVec.and_or_distrib_right, axisContribution_disjoint (by decide), axisContribution_disjoint (by decide),
    BitVec.or_zero]

/-! The command ILV (R161). -/

/-- The key in KEY: bit 3j + a is bit j of the axis. -/
theorem getLsbD_writeKey_interleave (qx qy qz : QInt) (s : State) (a : Axis) (j : Nat) :
    (writeKey (interleave qx qy qz) s).key.getLsbD (3 * j + axisOffset a) = (perAxis qx qy qz a).getLsbD j := by
  rw [writeKey_key, getLsbD_setWidth_keyWord, getLsbD_interleave]

/-- A written key leaves bit 63 zero (R22). -/
theorem getLsbD_writeKey_63 (k : KeyWord) (s : State) : (writeKey k s).key.getLsbD 63 = false := by
  rw [writeKey_key, getLsbD_setWidth_keyWord, BitVec.getLsbD_of_ge k 63 le_rfl]

end Sys2Proof.Machine

namespace Sys2Proof

open Sys2Proof.Machine

/-- Settles O23: the key is told by its bits, EXTRACT is the inverse, and the contributions do not overlap. -/
theorem interleaveIsTheKeyLayout : Obligations.InterleaveIsTheKeyLayout := by
  refine ⟨fun qx qy qz k _ => ?_, populated_chunkOf, interleave_bijective, fun qx qy qz => ?_⟩
  · have hbit (a : Axis) := getLsbD_interleave qx qy qz a k
    exact ⟨hbit .x, hbit .y, hbit .z⟩
  · simp only [toNat_interleave, toNat_axisContribution]
    omega

/-- Settles O35: ILV writes the interleaved key. -/
theorem ilvWritesTheKeyLayout : Obligations.IlvWritesTheKeyLayout := by
  refine fun s => ⟨_, CommandResult.ilv.exec_eq, getLsbD_writeKey_63 _ s, fun a j _ => ?_⟩
  rw [qReg_eq_perAxis]
  exact getLsbD_writeKey_interleave s.qx s.qy s.qz s a j

end Sys2Proof

/-! PROOFS. The quantizer (spec/41_encoder.md R150 to R155). The idea: a finite pattern's value is a signed 53-bit significand
times a power of two, so its magnitude is bounded by its exponent field, which gives the validity test; and on a valid pattern
the numerator of R154 over 2^(sh + 1) is 2^20 v + 2^20 + 1/2 itself. Every property of the quantizer is then one of the floor. -/

namespace Sys2Proof.Machine

open Sys2Proof.Safety

/-! The fields of a pattern (R83). -/

theorem fracField_lt (b : Word) : fracField b < 2 ^ 52 := (b.extractLsb' 0 52).isLt

/-- A pattern is its three fields, laid out by R83. -/
theorem toNat_eq_fields (b : Word) : b.toNat = (signBit b).toNat * 2 ^ 63 + expField b * 2 ^ 52 + fracField b := by
  have hsign : (signBit b).toNat = b.toNat / 2 ^ 63 % 2 := Nat.toNat_testBit _ _
  have hexp : expField b = b.toNat / 2 ^ 52 % 2 ^ 11 := by
    rw [expField, BitVec.extractLsb'_toNat, Nat.shiftRight_eq_div_pow]
  have hfrac : fracField b = b.toNat % 2 ^ 52 := by
    rw [fracField, BitVec.extractLsb'_toNat, Nat.shiftRight_zero]
  have hb := b.isLt
  omega

theorem validCoord_iff (b : Word) : validCoord b = true ↔ expField b ≤ 1022 ∨ (expField b = 1023 ∧ fracField b = 0) := by
  simp [validCoord]

theorem expField_le_of_validCoord {b : Word} (h : validCoord b = true) : expField b ≤ 1023 := by
  rcases (validCoord_iff b).mp h with h | ⟨h, -⟩ <;> omega

theorem significand_lt (b : Word) : significand b < 2 ^ 53 := by
  have hf := fracField_lt b
  simp only [significand, Nat.one_shiftLeft]
  split <;> omega

theorem significand_of_normal {b : Word} (h : expField b ≠ 0) : significand b = 2 ^ 52 + fracField b := by
  rw [significand, if_neg h, Nat.one_shiftLeft]

theorem effExp_of_normal {b : Word} (h : expField b ≠ 0) : effExp b = expField b := if_neg h

theorem effExp_le {b : Word} {n : Nat} (hn : 1 ≤ n) (h : expField b ≤ n) : effExp b ≤ n := by
  rw [effExp]
  split <;> omega

/-! The value of a pattern (R84). -/

/-- The significand with the sign of the pattern. -/
def signedSignificand (b : Word) : ℤ := if signBit b then -(significand b : ℤ) else significand b

theorem abs_signedSignificand (b : Word) : |signedSignificand b| = significand b := by
  rw [signedSignificand]
  split <;> simp

theorem coordValue_eq_some_iff (b : Word) (v : ℚ) :
    coordValue b = some v ↔ expField b ≠ 2047 ∧ v = signedSignificand b * (2 : ℚ) ^ ((effExp b : ℤ) - 1075) := by
  rw [coordValue]
  split
  next h => simp [h]
  next h =>
    rw [Option.some.injEq, eq_comm, signedSignificand]
    cases signBit b <;> simp [h]

theorem exists_coordValue_of_validCoord {b : Word} (h : validCoord b = true) : ∃ v, coordValue b = some v := by
  have hexp := expField_le_of_validCoord h
  exact ⟨_, (coordValue_eq_some_iff b _).mpr ⟨by omega, rfl⟩⟩

theorem abs_coordValue {b : Word} {v : ℚ} (hv : coordValue b = some v) :
    |v| = significand b * (2 : ℚ) ^ ((effExp b : ℤ) - 1075) := by
  obtain ⟨-, rfl⟩ := (coordValue_eq_some_iff b v).mp hv
  rw [abs_mul, ← Int.cast_abs, abs_signedSignificand, Int.cast_natCast, abs_of_pos (zpow_pos two_pos _)]

/-- The exponent field bounds the magnitude from above. -/
theorem abs_coordValue_lt {b : Word} {v : ℚ} (hv : coordValue b = some v) {n : Nat} (hn : 1 ≤ n) (h : expField b ≤ n) :
    |v| < (2 : ℚ) ^ ((n : ℤ) - 1022) := by
  have hsig : (significand b : ℚ) < 2 ^ 53 := by exact_mod_cast significand_lt b
  have hexp : ((effExp b : ℤ) - 1075) ≤ (n : ℤ) - 1075 := by
    have hle := effExp_le hn h
    omega
  calc |v| = significand b * (2 : ℚ) ^ ((effExp b : ℤ) - 1075) := abs_coordValue hv
    _ ≤ significand b * (2 : ℚ) ^ ((n : ℤ) - 1075) :=
      mul_le_mul_of_nonneg_left (zpow_le_zpow_right₀ one_le_two hexp) (Nat.cast_nonneg _)
    _ < 2 ^ (53 : ℤ) * (2 : ℚ) ^ ((n : ℤ) - 1075) := mul_lt_mul_of_pos_right (by exact_mod_cast hsig) (zpow_pos two_pos _)
    _ = (2 : ℚ) ^ ((n : ℤ) - 1022) := by
      rw [← zpow_add₀ two_ne_zero]
      congr 1
      ring

/-- A normal pattern's magnitude is 1.f times its power of two. -/
theorem abs_coordValue_of_normal {b : Word} {v : ℚ} (hv : coordValue b = some v) (h : expField b ≠ 0) :
    |v| = (1 + fracField b / 2 ^ 52) * (2 : ℚ) ^ ((expField b : ℤ) - 1023) := by
  have hexp : (2 : ℚ) ^ ((expField b : ℤ) - 1023) = 2 ^ (52 : ℤ) * (2 : ℚ) ^ ((expField b : ℤ) - 1075) := by
    rw [← zpow_add₀ two_ne_zero]
    congr 1
    ring
  rw [abs_coordValue hv, effExp_of_normal h, significand_of_normal h, hexp]
  push_cast
  ring

theorem coordValue_nonneg {b : Word} {v : ℚ} (hv : coordValue b = some v) (hs : signBit b = false) : 0 ≤ v := by
  obtain ⟨-, rfl⟩ := (coordValue_eq_some_iff b v).mp hv
  simp only [signedSignificand, hs, Bool.false_eq_true, if_false, Int.cast_natCast]
  positivity

theorem coordValue_nonpos {b : Word} {v : ℚ} (hv : coordValue b = some v) (hs : signBit b = true) : v ≤ 0 := by
  obtain ⟨-, rfl⟩ := (coordValue_eq_some_iff b v).mp hv
  refine mul_nonpos_of_nonpos_of_nonneg ?_ (zpow_pos two_pos _).le
  simp [signedSignificand, hs]

/-- The validity test is a bound on the magnitude (R152). -/
theorem validCoord_iff_abs_le {b : Word} {v : ℚ} (hv : coordValue b = some v) : validCoord b = true ↔ |v| ≤ 1 := by
  rw [validCoord_iff]
  obtain hlow | heq | hhigh := lt_trichotomy (expField b) 1023
  · have hlt := abs_coordValue_lt hv (n := 1022) (by decide) (by omega)
    exact iff_of_true (.inl (by omega)) (by simpa using hlt.le)
  · have hf : (0 : ℚ) ≤ fracField b := Nat.cast_nonneg _
    rw [abs_coordValue_of_normal hv (by omega), heq, Nat.cast_ofNat, sub_self, zpow_zero, mul_one]
    constructor
    · rintro (h | ⟨-, h⟩)
      · omega
      · simp [h]
    · intro h
      have hzero : (fracField b : ℚ) = 0 := by linarith
      exact .inr ⟨rfl, by exact_mod_cast hzero⟩
  · have hpow : (1 : ℚ) < (2 : ℚ) ^ ((expField b : ℤ) - 1023) := one_lt_zpow₀ one_lt_two (by omega)
    have hfrac : (1 : ℚ) ≤ 1 + fracField b / 2 ^ 52 := le_add_of_nonneg_right (by positivity)
    rw [abs_coordValue_of_normal hv (by omega)]
    exact iff_of_false (by omega) (one_lt_mul hfrac hpow).not_ge

theorem coordValue_bounds {b : Word} {v : ℚ} (hb : validCoord b = true) (hv : coordValue b = some v) : -1 ≤ v ∧ v ≤ 1 :=
  abs_le.mp ((validCoord_iff_abs_le hv).mp hb)

theorem validCoord_iff_inUnitInterval (b : Word) : validCoord b = true ↔ InUnitInterval b := by
  constructor
  · intro h
    obtain ⟨v, hv⟩ := exists_coordValue_of_validCoord h
    exact ⟨v, hv, coordValue_bounds h hv⟩
  · rintro ⟨v, hv, hle⟩
    exact (validCoord_iff_abs_le hv).mpr (abs_le.mpr hle)

/-! The integer form is the exact floor (R151, R154). -/

section
variable {b : Word} {v : ℚ} (hb : validCoord b = true) (hv : coordValue b = some v)
include hb hv

/-- 2^21 v is the signed significand over 2^sh. -/
theorem signedSignificand_eq : (signedSignificand b : ℚ) = 2 ^ 21 * v * 2 ^ quantShift b := by
  have hexp : effExp b ≤ 1023 := effExp_le (by decide) (expField_le_of_validCoord hb)
  have hsh : (effExp b : ℤ) - 1075 = -(21 + quantShift b : ℕ) := by
    rw [quantShift]
    omega
  obtain ⟨-, rfl⟩ := (coordValue_eq_some_iff b v).mp hv
  rw [hsh, zpow_neg, zpow_natCast, pow_add]
  field_simp

/-- The numerator of R154 is 2^sh times (2^21 v + 2^21 + 1): the subtraction does not run below zero. -/
theorem quantNumerator_eq : (quantNumerator b : ℚ) = (2 ^ 21 * v + 2 ^ 21 + 1) * 2 ^ quantShift b := by
  have hsig := signedSignificand_eq hb hv
  have hpos : (0 : ℚ) < 2 ^ quantShift b := pow_pos two_pos _
  obtain ⟨hlow, -⟩ := coordValue_bounds hb hv
  rw [quantNumerator]
  rw [signedSignificand] at hsig
  split at hsig
  next hs =>
    have hle : (significand b : ℚ) ≤ ((2 ^ 21 + 1) <<< quantShift b : ℕ) := by
      rw [Nat.shiftLeft_eq]
      push_cast at hsig ⊢
      linarith [mul_le_mul_of_nonneg_right hlow hpos.le]
    rw [if_pos hs, Nat.cast_sub (by exact_mod_cast hle), Nat.shiftLeft_eq]
    push_cast at hsig ⊢
    linarith
  next hs =>
    rw [if_neg hs, Nat.shiftLeft_eq]
    push_cast at hsig ⊢
    linarith

theorem quantRaw_eq_exactQuant : (quantRaw b : ℤ) = exactQuant v := by
  have hquot : 2 ^ 20 * v + 2 ^ 20 + 1 / 2 = (quantNumerator b : ℤ) / ((2 ^ (quantShift b + 1) : ℕ) : ℚ) := by
    rw [Int.cast_natCast, quantNumerator_eq hb hv]
    push_cast
    rw [pow_succ]
    field_simp
    ring
  rw [exactQuant, hquot, Rat.floor_intCast_div_natCast, quantRaw, Nat.shiftRight_eq_div_pow]
  push_cast
  rfl

/-- QRAW is told by the interval of its values (R151). -/
theorem quantRaw_eq_iff (n : Nat) :
    quantRaw b = n ↔ (n : ℚ) ≤ 2 ^ 20 * v + 2 ^ 20 + 1 / 2 ∧ 2 ^ 20 * v + 2 ^ 20 + 1 / 2 < n + 1 := by
  rw [← Int.natCast_inj, quantRaw_eq_exactQuant hb hv, exactQuant, Int.floor_eq_iff, Int.cast_natCast]

theorem quantRaw_le : quantRaw b ≤ 2 ^ 21 := by
  obtain ⟨-, hhigh⟩ := coordValue_bounds hb hv
  obtain ⟨hle, -⟩ := (quantRaw_eq_iff hb hv _).mp rfl
  have hlt : (quantRaw b : ℚ) < (2 ^ 21 + 1 : ℕ) := by
    push_cast
    linarith
  exact Nat.lt_succ_iff.mp (by exact_mod_cast hlt)

/-- The quantizer reaches 2^21 from 1 - 2^-21 on (R153). -/
theorem quantRaw_eq_top_iff : quantRaw b = 2 ^ 21 ↔ 1 - 1 / 2 ^ 21 ≤ v := by
  obtain ⟨-, hhigh⟩ := coordValue_bounds hb hv
  rw [quantRaw_eq_iff hb hv]
  push_cast
  constructor
  · rintro ⟨hle, -⟩
    linarith
  · intro h
    constructor <;> linarith

end

/-! The clamp (R153). -/

theorem toNat_quantize (b : Word) : (quantize b).toNat = min (quantRaw b) (2 ^ 21 - 1) := by
  rw [quantize, BitVec.toNat_ofNat, Nat.mod_eq_of_lt (by omega)]

theorem quantSat_iff (b : Word) : quantSat b = true ↔ quantRaw b = 2 ^ 21 := decide_eq_true_iff

theorem quantize_of_quantRaw_eq_top {b : Word} (h : quantRaw b = 2 ^ 21) : quantize b = 0x1FFFFF#21 :=
  BitVec.eq_of_toNat_eq (by rw [toNat_quantize, h]; decide)

section
variable {b : Word} {v : ℚ} (hb : validCoord b = true) (hv : coordValue b = some v)
include hb hv

/-- The clamping values are those of the positive patterns from 1 - 2^-21, told by the exponent field. -/
theorem clamps_iff_fields : 1 - 1 / 2 ^ 21 ≤ v ↔
    signBit b = false ∧ (expField b = 1023 ∨ (expField b = 1022 ∧ 2 ^ 52 - 2 ^ 32 ≤ fracField b)) := by
  cases hs : signBit b with
  | true =>
    have hle := coordValue_nonpos hv hs
    exact iff_of_false (by linarith) (by simp)
  | false =>
    have habs := abs_of_nonneg (coordValue_nonneg hv hs)
    simp only [true_and]
    obtain h | h | ⟨h, hf⟩ : expField b ≤ 1021 ∨ expField b = 1022 ∨ (expField b = 1023 ∧ fracField b = 0) := by
      have hvalid := (validCoord_iff b).mp hb
      omega
    · have hlt := abs_coordValue_lt hv (n := 1021) (by decide) h
      norm_num [habs] at hlt
      exact iff_of_false (by linarith) (by omega)
    · have hval : v = (1 + fracField b / 2 ^ 52) / 2 := by
        rw [← habs, abs_coordValue_of_normal hv (by omega), h]
        norm_num [div_eq_mul_inv]
      have hfrac : 1 - 1 / 2 ^ 21 ≤ v ↔ ((2 ^ 52 - 2 ^ 32 : ℕ) : ℚ) ≤ fracField b := by
        rw [hval, Nat.cast_sub (by decide)]
        push_cast
        constructor <;> intro _ <;> linarith
      rw [hfrac, Nat.cast_le]
      omega
    · rw [← habs, abs_coordValue_of_normal hv (by omega), h, hf]
      norm_num

theorem clamps_iff_pattern : 1 - 1 / 2 ^ 21 ≤ v ↔ 0x3FEFFFFF00000000#64 ≤ b ∧ b ≤ 0x3FF0000000000000#64 := by
  have hfields := toNat_eq_fields b
  have hfrac := fracField_lt b
  have hvalid := (validCoord_iff b).mp hb
  rw [clamps_iff_fields hb hv, BitVec.le_def, BitVec.le_def, BitVec.toNat_ofNat, BitVec.toNat_ofNat]
  cases hs : signBit b with
  | true =>
    simp only [hs, Bool.toNat_true] at hfields
    exact iff_of_false (by simp) (by omega)
  | false =>
    simp only [hs, Bool.toNat_false, true_and] at hfields ⊢
    omega

theorem toNat_quantize_eq_min_exactQuant : ((quantize b).toNat : ℤ) = min (exactQuant v) (2 ^ 21 - 1) := by
  rw [toNat_quantize, ← quantRaw_eq_exactQuant hb hv]
  push_cast
  rfl

/-! The properties of R155. -/

theorem quantRaw_mono {b' : Word} {v' : ℚ} (hb' : validCoord b' = true) (hv' : coordValue b' = some v') (h : v ≤ v') :
    quantRaw b ≤ quantRaw b' := by
  have hfloor : exactQuant v ≤ exactQuant v' := Int.floor_mono (by linarith)
  rwa [← quantRaw_eq_exactQuant hb hv, ← quantRaw_eq_exactQuant hb' hv', Int.ofNat_le] at hfloor

theorem quantRaw_of_abs_lt (h : |v| < 1 / 2 ^ 21) : quantRaw b = 0x100000 := by
  obtain ⟨hlow, hhigh⟩ := abs_lt.mp h
  exact (quantRaw_eq_iff hb hv _).mpr ⟨by push_cast; linarith, by push_cast; linarith⟩

theorem quantRaw_of_grid {n : Nat} (h : v = (n : ℚ) / 2 ^ 20 - 1) : quantRaw b = n :=
  (quantRaw_eq_iff hb hv _).mpr ⟨by linarith, by linarith⟩

theorem quantRaw_of_tie {n : Nat} (h : v = ((n : ℚ) + 1 / 2) / 2 ^ 20 - 1) : quantRaw b = n + 1 :=
  (quantRaw_eq_iff hb hv _).mpr ⟨by push_cast; linarith, by push_cast; linarith⟩

/-- Below the clamp the quantized integer is QRAW, and its grid point is within half a step. -/
theorem abs_gridValue_quantize_sub_le (h : v < 1 - 1 / 2 ^ 21) : |gridValue (quantize b) - v| ≤ 1 / 2 ^ 21 := by
  have htop : quantRaw b ≠ 2 ^ 21 := fun e => h.not_ge ((quantRaw_eq_top_iff hb hv).mp e)
  have hq : (quantize b).toNat = quantRaw b := by
    have hle := quantRaw_le hb hv
    rw [toNat_quantize]
    omega
  obtain ⟨hlow, hhigh⟩ := (quantRaw_eq_iff hb hv _).mp rfl
  rw [gridValue, hq, abs_le]
  constructor <;> linarith

end

/-- Zeros and subnormals are too small to move the quantizer from the middle. -/
theorem quantRaw_of_expField_eq_zero {b : Word} (h : expField b = 0) : quantRaw b = 0x100000 := by
  have hb : validCoord b = true := (validCoord_iff b).mpr (.inl (by omega))
  obtain ⟨v, hv⟩ := exists_coordValue_of_validCoord hb
  refine quantRaw_of_abs_lt hb hv ?_
  calc |v| < (2 : ℚ) ^ (((1 : ℕ) : ℤ) - 1022) := abs_coordValue_lt hv le_rfl (by omega)
    _ ≤ (2 : ℚ) ^ (-21 : ℤ) := zpow_le_zpow_right₀ one_le_two (by decide)
    _ = 1 / 2 ^ 21 := by rw [zpow_neg, one_div]; rfl

end Sys2Proof.Machine

namespace Sys2Proof

open Sys2Proof.Machine

/-- Settles O25: both say that the magnitude is at most 1. -/
theorem validCoordIsTheUnitInterval : Obligations.ValidCoordIsTheUnitInterval := validCoord_iff_inUnitInterval

/-- Settles O26: the numerator over 2^(sh + 1) is the real number that R151 floors. -/
theorem quantizerIsTheExactFloor : Obligations.QuantizerIsTheExactFloor :=
  fun _ _ hb hv => ⟨quantRaw_eq_exactQuant hb hv, quantRaw_le hb hv⟩

/-- Settles O28: each property is one of the floor of 2^20 v + 2^20 + 1/2. -/
theorem quantizerProperties : Obligations.QuantizerProperties := by
  refine ⟨by decide, ⟨quantRaw_of_expField_eq_zero (by decide), quantRaw_of_expField_eq_zero (by decide)⟩,
    fun b => quantRaw_of_expField_eq_zero, fun b v hb hv => ⟨quantRaw_of_abs_lt hb hv, fun n _ => quantRaw_of_grid hb hv,
      fun n => quantRaw_of_tie hb hv, fun b' v' => quantRaw_mono hb hv, abs_gridValue_quantize_sub_le hb hv, fun htop => ?_⟩⟩
  obtain ⟨-, hhigh⟩ := coordValue_bounds hb hv
  exact ⟨quantize_of_quantRaw_eq_top ((quantRaw_eq_top_iff hb hv).mpr htop), by linarith, by linarith⟩

end Sys2Proof

/-! PROOFS. The encoder's commands (spec/41_encoder.md R160 to R163). The idea: the conditions that QNT and ENC test on the
patterns say of their values that all are in [-1.0, 1.0] and that some value is at or above 1 - 2^-21; what the commands then
write is told by the quantizer's exact floor and by the bits of the key. -/

namespace Sys2Proof.Machine

open Sys2Proof.Safety

/-! The conditions of QNT and ENC, in values (R152, R153). -/

theorem forall_axis_iff {p : Axis → Prop} : (∀ a, p a) ↔ p .x ∧ p .y ∧ p .z :=
  ⟨fun h => ⟨h .x, h .y, h .z⟩, fun ⟨hx, hy, hz⟩ a => by cases a <;> assumption⟩

theorem coordsValid_iff_forall (s : State) : coordsValid s = true ↔ ∀ a, validCoord (coordReg a s) = true := by
  simp [coordsValid, forall_axis_iff, coordReg, and_assoc]

theorem coordsValid_iff (s : State) : coordsValid s = true ↔ AllInUnitInterval s := by
  simp only [coordsValid_iff_forall, validCoord_iff_inUnitInterval, AllInUnitInterval]

theorem anySat_iff_exists (s : State) : anySat s = true ↔ ∃ a, quantSat (coordReg a s) = true := by
  rw [anySat, Bool.or_eq_true, Bool.or_eq_true]
  refine ⟨?_, fun ⟨a, ha⟩ => ?_⟩
  · rintro ((h | h) | h)
    exacts [⟨.x, h⟩, ⟨.y, h⟩, ⟨.z, h⟩]
  · cases a <;> simp_all [coordReg]

/-- On valid coordinates SAT's condition is that some value is at or above 1 - 2^-21. -/
theorem anySat_iff {s : State} (h : coordsValid s = true) : anySat s = true ↔ SomeClamps s := by
  have hvalid := (coordsValid_iff_forall s).mp h
  rw [anySat_iff_exists]
  refine exists_congr fun a => ?_
  obtain ⟨v, hv⟩ := exists_coordValue_of_validCoord (hvalid a)
  rw [quantSat_iff, quantRaw_eq_top_iff (hvalid a) hv]
  simp [hv]

/-- SAT is bit 4 of STATUS, raised exactly when some value clamps (R86, R153). -/
theorem status_noticeWhen_anySat {s : State} (h : coordsValid s = true) (t : State) :
    (SomeClamps s → (noticeWhen (anySat s) .sat t).status = t.status ||| 0x10#5) ∧
      (¬SomeClamps s → (noticeWhen (anySat s) .sat t).status = t.status) := by
  rw [← anySat_iff h, noticeWhen_status]
  exact ⟨fun hsat => if_pos hsat, fun hsat => if_neg hsat⟩

/-! What QNT and ENC answer (R160, R162). -/

section
variable (s : State)

@[simp] theorem quantizeRegs_qx : (quantizeRegs s).qx = quantize s.x := rfl
@[simp] theorem quantizeRegs_qy : (quantizeRegs s).qy = quantize s.y := rfl
@[simp] theorem quantizeRegs_qz : (quantizeRegs s).qz = quantize s.z := rfl

@[simp] theorem qReg_quantizeRegs (a : Axis) : qReg a (quantizeRegs s) = quantize (coordReg a s) := by cases a <;> rfl
@[simp] theorem qReg_writeKey (a : Axis) (k : KeyWord) : qReg a (writeKey k s) = qReg a s := by cases a <;> rfl
@[simp] theorem qReg_noticeWhen (a : Axis) (c : Bool) (f : Flag) : qReg a (noticeWhen c f s) = qReg a s := by
  cases c <;> cases a <;> rfl

/-- The encoder's result on valid coordinates: the Q registers and the key laid out from them. -/
def encodeRegs : State := writeKey (interleave (quantize s.x) (quantize s.y) (quantize s.z)) (quantizeRegs s)

@[simp] theorem qReg_encodeRegs (a : Axis) : qReg a (encodeRegs s) = quantize (coordReg a s) :=
  (qReg_writeKey _ a _).trans (qReg_quantizeRegs s a)

theorem writeKey_noticeWhen (c : Bool) (f : Flag) (k : KeyWord) :
    writeKey k (noticeWhen c f s) = noticeWhen c f (writeKey k s) := by cases c <;> rfl

end

theorem exec_qnt_of_valid {s : State} (h : coordsValid s = true) :
    exec .qnt s = .next (noticeWhen (anySat s) .sat (quantizeRegs s)) := (CommandResult.qnt h).exec_eq

theorem exec_enc_of_valid {s : State} (h : coordsValid s = true) :
    exec .enc s = .next (noticeWhen (anySat s) .sat (encodeRegs s)) := (CommandResult.enc h).exec_eq

/-- A fault of QNT or ENC is RANGE, bit 0 of STATUS, and nothing else (R152). -/
theorem exec_of_not_coordsValid {s : State} (h : coordsValid s = false) :
    exec .qnt s = .next { s with status := s.status ||| 0x01#5 } ∧
      exec .enc s = .next { s with status := s.status ||| 0x01#5 } :=
  ⟨(CommandResult.qntRange h).exec_eq, (CommandResult.encRange h).exec_eq⟩

theorem coordsValid_eq_false_of_not {s : State} (h : ¬AllInUnitInterval s) : coordsValid s = false :=
  Bool.eq_false_iff.mpr fun hc => h ((coordsValid_iff s).mp hc)

/-- On valid coordinates a quantized register is the exact floor, clamped. -/
theorem toNat_quantize_coordReg {s : State} (h : coordsValid s = true) {a : Axis} {v : ℚ}
    (hv : coordValue (coordReg a s) = some v) :
    ((quantize (coordReg a s)).toNat : ℤ) = min (exactQuant v) (2 ^ 21 - 1) :=
  toNat_quantize_eq_min_exactQuant ((coordsValid_iff_forall s).mp h a) hv

/-! Coordinates that quantize without a clamp (R163). -/

/-- The pattern is valid and quantizes to q without a clamp. -/
def QuantizesTo (b : Word) (q : QInt) : Prop := validCoord b = true ∧ quantSat b = false ∧ quantize b = q

theorem quantizesTo_lowest : QuantizesTo 0xBFF0000000000000#64 0#21 := by unfold QuantizesTo; decide
theorem quantizesTo_next : QuantizesTo 0xBFEFFFFE00000000#64 1#21 := by unfold QuantizesTo; decide
theorem quantizesTo_highest : QuantizesTo 0x3FEFFFFE00000000#64 0x1FFFFF#21 := by unfold QuantizesTo; decide

/-- Without a clamp ENC writes the Q registers and the key, and raises nothing. -/
theorem exec_enc_of_quantizesTo {x y z : Word} {qx qy qz : QInt} (hx : QuantizesTo x qx) (hy : QuantizesTo y qy)
    (hz : QuantizesTo z qz) (s : State) : exec .enc { s with x := x, y := y, z := z } =
      .next { s with x := x, y := y, z := z, qx := qx, qy := qy, qz := qz, key := (interleave qx qy qz).setWidth 64 } := by
  obtain ⟨hvx, hsx, rfl⟩ := hx
  obtain ⟨hvy, hsy, rfl⟩ := hy
  obtain ⟨hvz, hsz, rfl⟩ := hz
  have hvalid : coordsValid { s with x := x, y := y, z := z } = true := by simp [coordsValid, hvx, hvy, hvz]
  have hsat : anySat { s with x := x, y := y, z := z } = false := by simp [anySat, hsx, hsy, hsz]
  rw [exec_enc_of_valid hvalid, hsat]
  rfl

end Sys2Proof.Machine

namespace Sys2Proof

open Sys2Proof.Machine Sys2Proof.Safety

/-- Settles O27: the top values are those of the patterns from 1 - 2^-21, and SAT is raised for each. -/
theorem clampAtTheTop : Obligations.ClampAtTheTop := by
  refine ⟨fun b hb => ⟨?_, fun v hv => quantRaw_eq_top_iff hb hv, toNat_quantize b, quantSat_iff b⟩, fun s hs hclamps => ?_⟩
  · obtain ⟨v, hv⟩ := exists_coordValue_of_validCoord hb
    exact (quantRaw_eq_top_iff hb hv).trans (clamps_iff_pattern hb hv)
  · have hvalid := (coordsValid_iff s).mpr hs
    have hsat (t : State) : hasFlag .sat (noticeWhen (anySat s) .sat t).status = true := by
      simp [(anySat_iff hvalid).mpr hclamps, hasFlag_setFlag]
    exact ⟨_, _, exec_qnt_of_valid hvalid, exec_enc_of_valid hvalid, hsat _, hsat _⟩

/-- Settles O33: on values in the interval QNT stores the floors, and otherwise it faults. -/
theorem qntStoresTheExactFloors : Obligations.QntStoresTheExactFloors := by
  refine fun s => ⟨fun hs => ?_, fun hs => (exec_of_not_coordsValid (coordsValid_eq_false_of_not hs)).1⟩
  have hvalid := (coordsValid_iff s).mpr hs
  refine ⟨_, exec_qnt_of_valid hvalid, ?_, fun a v hv => ?_, status_noticeWhen_anySat hvalid (quantizeRegs s)⟩
  · cases anySat s <;> rfl
  · rw [qReg_noticeWhen, qReg_quantizeRegs, toNat_quantize_coordReg hvalid hv]

/-- Settles O34: one invalid coordinate is enough for the fault. -/
theorem invalidCoordinateRaisesRange : Obligations.InvalidCoordinateRaisesRange := by
  refine ⟨fun b => ?_, fun s a ha => exec_of_not_coordsValid ?_⟩
  · rw [validCoord_iff, fracField, ← BitVec.toNat_inj]
    rfl
  · refine Bool.eq_false_iff.mpr fun hc => ?_
    exact absurd ((coordsValid_iff_forall s).mp hc a) (by simp [ha])

/-- Settles O36: writing the key and raising SAT may be done in either order. -/
theorem encIsQntThenIlv : Obligations.EncIsQntThenIlv := by
  refine fun s => ⟨fun hs => ?_, fun hs => ?_⟩
  · have hvalid := (coordsValid_iff s).mpr hs
    refine ⟨_, _, exec_qnt_of_valid hvalid, CommandResult.ilv.exec_eq, ?_⟩
    rw [exec_enc_of_valid hvalid, writeKey_noticeWhen]
    simp [encodeRegs]
  · obtain ⟨hqnt, henc⟩ := exec_of_not_coordsValid (coordsValid_eq_false_of_not hs)
    exact ⟨henc, henc.trans hqnt.symm⟩

/-- Settles O37: the floors as for QNT, and the key by the bits of INTERLEAVE. -/
theorem encStoresFloorsAndKey : Obligations.EncStoresFloorsAndKey := by
  intro s hs
  have hvalid := (coordsValid_iff s).mpr hs
  refine ⟨_, exec_enc_of_valid hvalid, ?_, fun a v hv => ?_, fun a j _ => ?_, ?_,
    status_noticeWhen_anySat hvalid (encodeRegs s)⟩
  · cases anySat s <;> rfl
  · rw [qReg_noticeWhen, qReg_encodeRegs, toNat_quantize_coordReg hvalid hv]
  · rw [noticeWhen_key, qReg_noticeWhen, qReg_eq_perAxis]
    exact getLsbD_writeKey_interleave _ _ _ (quantizeRegs s) a j
  · rw [noticeWhen_key]
    exact getLsbD_writeKey_63 _ (quantizeRegs s)

/-- Settles O38: the coordinates are grid points, and the keys of their integers are computed. -/
theorem encBitPositionContract : Obligations.EncBitPositionContract := by
  have hx : interleave 1#21 0#21 0#21 = 1#63 := by decide
  have hy : interleave 0#21 1#21 0#21 = 2#63 := by decide
  have hz : interleave 0#21 0#21 1#21 = 4#63 := by decide
  have htop : interleave 0x1FFFFF#21 0x1FFFFF#21 0x1FFFFF#21 = 0x7FFFFFFFFFFFFFFF#63 := by decide
  refine fun s => ⟨?_, ?_, ?_, ?_⟩
  · rw [exec_enc_of_quantizesTo quantizesTo_next quantizesTo_lowest quantizesTo_lowest, hx]
    rfl
  · rw [exec_enc_of_quantizesTo quantizesTo_lowest quantizesTo_next quantizesTo_lowest, hy]
    rfl
  · rw [exec_enc_of_quantizesTo quantizesTo_lowest quantizesTo_lowest quantizesTo_next, hz]
    rfl
  · rw [exec_enc_of_quantizesTo quantizesTo_highest quantizesTo_highest quantizesTo_highest, htop]
    rfl

end Sys2Proof

/-! PROOFS. The extractor and the rescaler (spec/42_decoder.md R181 to R188). The idea: the fields of DEQUANT(q) spell the
magnitude |q - 2^20| as a 53-bit significand, its highest one bit in front, so the pattern's value is exactly the grid value of
q. A grid value lies in [-1.0, 1.0] and is where the quantizer's floor is q itself; the other properties follow from this. -/

namespace Sys2Proof.Machine

open Sys2Proof.Safety

/-! The grid values (R186). -/

theorem gridValue_strictMono {p q : QInt} (h : p < q) : gridValue p < gridValue q := by
  have hlt : (p.toNat : ℚ) < q.toNat := by exact_mod_cast BitVec.lt_def.mp h
  rw [gridValue, gridValue]
  linarith

theorem abs_gridValue_le (q : QInt) : |gridValue q| ≤ 1 := by
  have hlow : (0 : ℚ) ≤ q.toNat := Nat.cast_nonneg _
  have hhigh : (q.toNat : ℚ) < 2 ^ 21 := by exact_mod_cast q.isLt
  rw [gridValue, abs_le]
  constructor <;> linarith

/-! The fields of a pattern laid out from them (R83). -/

section
variable (s : Bool) (e : BitVec 11) (f : BitVec 52)

theorem signBit_append : signBit (BitVec.ofBool s ++ e ++ f) = s := by
  rw [signBit, BitVec.getLsbD_append, BitVec.getLsbD_append]
  simp

theorem expField_append : expField (BitVec.ofBool s ++ e ++ f) = e.toNat := by
  rw [expField, BitVec.extractLsb'_append_eq_of_le (by decide), BitVec.extractLsb'_append_eq_right]

theorem fracField_append : fracField (BitVec.ofBool s ++ e ++ f) = f.toNat := by
  rw [fracField, BitVec.extractLsb'_append_eq_right]

end

/-! The fields of a rescaled pattern (R187). -/

theorem toNat_ne_iff_ne_middle (q : QInt) : q.toNat ≠ 2 ^ 20 ↔ q ≠ 0x100000#21 := by
  rw [ne_eq, ne_eq, ← BitVec.toNat_inj]
  rfl

theorem dequant_middle : dequant 0x100000#21 = 0#64 := rfl

/-- The magnitude with the sign of the pattern is q - 2^20. -/
theorem signed_dequantMagnitude (q : QInt) :
    (if q.toNat < 2 ^ 20 then -(dequantMagnitude q : ℤ) else dequantMagnitude q) = (q.toNat : ℤ) - 2 ^ 20 := by
  rw [dequantMagnitude]
  split <;> omega

section
variable {q : QInt} (hq : q ≠ 0x100000#21)
include hq

theorem dequantMagnitude_ne_zero : dequantMagnitude q ≠ 0 := by
  have hmiddle := (toNat_ne_iff_ne_middle q).mpr hq
  rw [dequantMagnitude]
  split <;> omega

/-- The top bit p of the magnitude m: 2^p ≤ m < 2^(p+1), and p is at most 20. -/
theorem dequantTop_spec :
    2 ^ dequantTop q ≤ dequantMagnitude q ∧ dequantMagnitude q < 2 ^ (dequantTop q + 1) ∧ dequantTop q ≤ 20 := by
  have hne := dequantMagnitude_ne_zero hq
  have hle : dequantMagnitude q ≤ 2 ^ 20 := by
    rw [dequantMagnitude]
    split <;> omega
  have htop : dequantTop q < 21 := (Nat.log2_lt hne).mpr (hle.trans_lt (by decide))
  exact ⟨Nat.log2_self_le hne, Nat.lt_log2_self, Nat.lt_succ_iff.mp htop⟩

/-- Below its leading one the significand has 52 bits. -/
theorem dequantFrac_lt : (dequantMagnitude q - 2 ^ dequantTop q) <<< (52 - dequantTop q) < 2 ^ 52 := by
  obtain ⟨hlow, hhigh, htop⟩ := dequantTop_spec hq
  have hrest : dequantMagnitude q - 2 ^ dequantTop q < 2 ^ dequantTop q := by
    rw [pow_succ] at hhigh
    omega
  calc (dequantMagnitude q - 2 ^ dequantTop q) <<< (52 - dequantTop q)
      < 2 ^ dequantTop q * 2 ^ (52 - dequantTop q) := by
        rw [Nat.shiftLeft_eq]
        exact Nat.mul_lt_mul_of_pos_right hrest (Nat.two_pow_pos _)
    _ = 2 ^ 52 := by rw [← pow_add, Nat.add_sub_cancel' (by omega)]

/-- Off the middle the pattern is laid out from its three fields. -/
theorem dequant_of_ne : dequant q =
    BitVec.ofBool (decide (q.toNat < 2 ^ 20)) ++ BitVec.ofNat 11 (1023 + dequantTop q - 20) ++
      BitVec.ofNat 52 ((dequantMagnitude q - 2 ^ dequantTop q) <<< (52 - dequantTop q)) :=
  if_neg ((toNat_ne_iff_ne_middle q).mpr hq)

theorem signBit_dequant : signBit (dequant q) = decide (q.toNat < 2 ^ 20) := by
  rw [dequant_of_ne hq, signBit_append]

theorem expField_dequant : expField (dequant q) = 1003 + dequantTop q := by
  obtain ⟨-, -, htop⟩ := dequantTop_spec hq
  rw [dequant_of_ne hq, expField_append, BitVec.toNat_ofNat]
  omega

theorem fracField_dequant :
    fracField (dequant q) = (dequantMagnitude q - 2 ^ dequantTop q) <<< (52 - dequantTop q) := by
  rw [dequant_of_ne hq, fracField_append, BitVec.toNat_ofNat, Nat.mod_eq_of_lt (dequantFrac_lt hq)]

/-- With its leading one the fraction is the magnitude, moved up to 53 bits. -/
theorem significand_dequant : significand (dequant q) = dequantMagnitude q * 2 ^ (52 - dequantTop q) := by
  obtain ⟨hlow, -, htop⟩ := dequantTop_spec hq
  have hone : 2 ^ 52 = 2 ^ dequantTop q * 2 ^ (52 - dequantTop q) := by
    rw [← pow_add, Nat.add_sub_cancel' (by omega)]
  rw [significand_of_normal (by rw [expField_dequant hq]; omega), fracField_dequant hq, Nat.shiftLeft_eq, hone, ← add_mul,
    Nat.add_sub_cancel' hlow]

theorem signedSignificand_dequant :
    signedSignificand (dequant q) = ((q.toNat : ℤ) - 2 ^ 20) * 2 ^ (52 - dequantTop q) := by
  rw [signedSignificand, signBit_dequant hq, significand_dequant hq, ← signed_dequantMagnitude]
  simp only [decide_eq_true_eq]
  split <;> push_cast <;> ring

theorem coordValue_dequant_of_ne : coordValue (dequant q) = some (gridValue q) := by
  obtain ⟨-, -, htop⟩ := dequantTop_spec hq
  have hexp := expField_dequant hq
  refine (coordValue_eq_some_iff _ _).mpr ⟨by omega, ?_⟩
  have hsum : ((52 - dequantTop q : ℕ) : ℤ) + ((1003 + dequantTop q : ℕ) - 1075) = -20 := by omega
  have hscale : (2 : ℚ) ^ (52 - dequantTop q) * 2 ^ (((1003 + dequantTop q : ℕ) : ℤ) - 1075) = 1 / 2 ^ 20 := by
    rw [← zpow_natCast, ← zpow_add₀ two_ne_zero, hsum, zpow_neg, one_div]
    rfl
  rw [signedSignificand_dequant hq, effExp_of_normal (by omega), hexp, Int.cast_mul, Int.cast_pow, Int.cast_ofNat, mul_assoc,
    hscale, gridValue, mul_one_div]
  push_cast
  rfl

end

/-! The properties of the rescaler (R186, R188). -/

/-- The pattern stands for the grid value exactly. -/
theorem coordValue_dequant (q : QInt) : coordValue (dequant q) = some (gridValue q) := by
  by_cases hq : q = 0x100000#21
  · subst hq
    have hzero : signedSignificand 0#64 = 0 := by decide
    rw [dequant_middle, coordValue_eq_some_iff, hzero]
    exact ⟨by decide, by norm_num [gridValue]⟩
  · exact coordValue_dequant_of_ne hq

theorem validCoord_dequant (q : QInt) : validCoord (dequant q) = true :=
  (validCoord_iff_abs_le (coordValue_dequant q)).mpr (abs_gridValue_le q)

/-- A grid point's floor is its own integer. -/
theorem quantRaw_dequant (q : QInt) : quantRaw (dequant q) = q.toNat :=
  quantRaw_of_grid (validCoord_dequant q) (coordValue_dequant q) (by rw [gridValue, sub_div, div_self (by norm_num)])

theorem quantSat_dequant (q : QInt) : quantSat (dequant q) = false := by
  rw [Bool.eq_false_iff, ne_eq, quantSat_iff, quantRaw_dequant]
  exact q.isLt.ne

theorem quantize_dequant (q : QInt) : quantize (dequant q) = q :=
  BitVec.eq_of_toNat_eq <| by
    rw [toNat_quantize, quantRaw_dequant]
    exact min_eq_left (Nat.le_pred_of_lt q.isLt)

theorem quantizesTo_dequant (q : QInt) : QuantizesTo (dequant q) q :=
  ⟨validCoord_dequant q, quantSat_dequant q, quantize_dequant q⟩

theorem dequant_injective : Function.Injective dequant := Function.LeftInverse.injective quantize_dequant

/-- 1.0 is no grid point, since it clamps. -/
theorem dequant_ne_one (q : QInt) : dequant q ≠ 0x3FF0000000000000#64 := fun h =>
  absurd (h ▸ quantSat_dequant q) (by decide)

/-- The top bit is at most 20, so the fraction ends in 32 zeros. -/
theorem extractLsb'_dequant (q : QInt) : (dequant q).extractLsb' 0 32 = 0#32 := by
  by_cases hq : q = 0x100000#21
  · rw [hq, dequant_middle]
    rfl
  · obtain ⟨-, -, htop⟩ := dequantTop_spec hq
    have hdvd : 2 ^ 32 ∣ fracField (dequant q) := by
      rw [fracField_dequant hq, Nat.shiftLeft_eq]
      exact dvd_mul_of_dvd_right (pow_dvd_pow 2 (by omega)) _
    have hfields := toNat_eq_fields (dequant q)
    refine BitVec.eq_of_toNat_eq ?_
    rw [BitVec.extractLsb'_toNat, Nat.shiftRight_zero, BitVec.toNat_zero]
    omega

end Sys2Proof.Machine

namespace Sys2Proof

open Sys2Proof.Machine Sys2Proof.Safety

/-- Settles O24: the bits of EXTRACT are those of the rows its masked lookups gather. -/
theorem extractInvertsInterleave : Obligations.ExtractInvertsInterleave :=
  ⟨fun a k _ hj => getLsbD_extractAxis a k hj,
    fun qx qy qz => ⟨extractAxis_interleave .x qx qy qz, extractAxis_interleave .y qx qy qz,
      extractAxis_interleave .z qx qy qz⟩, interleave_extractAxis⟩

/-- Settles O29: the value by the fields of the pattern, and the exponent field is 1003 + p. -/
theorem dequantIsExact : Obligations.DequantIsExact := by
  refine fun q => ⟨coordValue_dequant q, fun hq => hq ▸ dequant_middle, fun hq => ?_⟩
  obtain ⟨-, -, htop⟩ := dequantTop_spec hq
  rw [expField_dequant hq]
  omega

/-- Settles O30: each property is one of the grid values. -/
theorem dequantProperties : Obligations.DequantProperties := by
  refine ⟨by decide, fun p q h => ⟨_, _, coordValue_dequant p, coordValue_dequant q, gridValue_strictMono h⟩,
    dequant_injective, fun q => ⟨dequant_ne_one q, validCoord_dequant q, quantize_dequant q, quantSat_dequant q,
      extractLsb'_dequant q⟩⟩

end Sys2Proof

/-! PROOFS. The decoder's commands and the round trips (spec/42_decoder.md R189 to R193). The idea: EXT and DEQ are two
operations on the state, and DEC is the second after the first. DEC after ENC reads back the integers that ENC interleaved, so
each coordinate becomes the grid point it was quantized to; ENC after DEC finds grid points, which quantize to themselves. -/

namespace Sys2Proof.Machine

open Sys2Proof.Safety

/-! What EXT, DEQ and DEC answer (R191 to R193). -/

section
variable (s : State)

/-- The extractor's result: the Q registers read from KEY[62:0], and KEY63 raised when KEY[63] is set. -/
def extractKey : State := extractRegs (keyOperand s) (noticeWhen (key63 s) .key63 s)

/-- The rescaler's result: each coordinate the rescaled Q register of its axis. -/
def rescaleRegs : State := writeCoords (dequant s.qx) (dequant s.qy) (dequant s.qz) s

theorem exec_ext : exec .ext s = .next (extractKey s) := CommandResult.ext.exec_eq
theorem exec_deq : exec .deq s = .next (rescaleRegs s) := CommandResult.deq.exec_eq
theorem exec_dec : exec .dec s = .next (rescaleRegs (extractKey s)) := CommandResult.dec.exec_eq

@[simp] theorem qReg_extractKey (a : Axis) : qReg a (extractKey s) = extractAxis a (keyOperand s) := by cases a <;> rfl
@[simp] theorem qReg_rescaleRegs (a : Axis) : qReg a (rescaleRegs s) = qReg a s := by cases a <;> rfl
@[simp] theorem coordReg_rescaleRegs (a : Axis) : coordReg a (rescaleRegs s) = dequant (qReg a s) := by cases a <;> rfl

/-- KEY63 is bit 3 of STATUS (R86, R183), and nothing but it and the Q registers changes. -/
theorem extractKey_eq : extractKey s =
    { s with qx := extractAxis .x (keyOperand s), qy := extractAxis .y (keyOperand s), qz := extractAxis .z (keyOperand s),
             status := if s.key.getLsbD 63 then s.status ||| 0x08#5 else s.status } := by
  rw [extractKey, noticeWhen_key63_eq]
  rfl

/-- Bit j of an axis is KEY bit 3j + a. -/
theorem getLsbD_extractAxis_keyOperand (a : Axis) {j : Nat} (hj : j < 21) :
    (extractAxis a (keyOperand s)).getLsbD j = s.key.getLsbD (3 * j + axisOffset a) := by
  have ha := axisOffset_lt a
  have hlt : 3 * j + axisOffset a < 63 := by omega
  rw [getLsbD_extractAxis a _ hj, keyOperand, BitVec.getLsbD_extractLsb', Nat.zero_add, decide_eq_true hlt, Bool.true_and]

end

/-! The round trips (R189). -/

@[simp] theorem keyOperand_noticeWhen (c : Bool) (f : Flag) (s : State) :
    keyOperand (noticeWhen c f s) = keyOperand s := by rw [keyOperand, noticeWhen_key, keyOperand]

@[simp] theorem keyOperand_writeKey (k : KeyWord) (s : State) : keyOperand (writeKey k s) = k :=
  BitVec.eq_of_getLsbD_eq fun j hj => by
    rw [keyOperand, BitVec.getLsbD_extractLsb', decide_eq_true hj, Bool.true_and, Nat.zero_add, writeKey_key,
      getLsbD_setWidth_keyWord]

/-- The decoder reads back the integers the encoder interleaved. -/
theorem extractAxis_keyOperand_encodeRegs (a : Axis) (s : State) :
    extractAxis a (keyOperand (encodeRegs s)) = quantize (coordReg a s) := by
  rw [encodeRegs, keyOperand_writeKey, extractAxis_interleave]
  cases a <;> rfl

theorem extractKey_status_of_key63 {s : State} (h : s.key.getLsbD 63 = false) : (extractKey s).status = s.status := by
  rw [extractKey_eq, h]
  rfl

/-- The encoder leaves KEY bit 63 zero, so the decoder after it raises no flag. -/
theorem extractKey_encode_status (s : State) :
    (extractKey (noticeWhen (anySat s) .sat (encodeRegs s))).status = (noticeWhen (anySat s) .sat (encodeRegs s)).status :=
  extractKey_status_of_key63 (by rw [noticeWhen_key]; exact getLsbD_writeKey_63 _ (quantizeRegs s))

section
variable {b : Word} {v : ℚ} (hb : validCoord b = true) (hv : coordValue b = some v)
include hb hv

/-- Where a coordinate clamps, its grid point is the highest. -/
theorem gridValue_quantize_of_clamps (h : 1 - 1 / 2 ^ 21 ≤ v) : gridValue (quantize b) = 1 - 1 / 2 ^ 20 := by
  rw [quantize_of_quantRaw_eq_top ((quantRaw_eq_top_iff hb hv).mpr h), gridValue]
  norm_num

/-- Half a step below the clamp, and between half a step and a whole one where it clamps: a step in either case. -/
theorem abs_gridValue_quantize_sub_le_step : |gridValue (quantize b) - v| ≤ 1 / 2 ^ 20 := by
  obtain ⟨-, hhigh⟩ := coordValue_bounds hb hv
  obtain hlow | htop := lt_or_ge v (1 - 1 / 2 ^ 21)
  · exact (abs_gridValue_quantize_sub_le hb hv hlow).trans (by norm_num)
  · rw [gridValue_quantize_of_clamps hb hv htop]
    exact abs_le.mpr ⟨by linarith, by linarith⟩

end

end Sys2Proof.Machine

namespace Sys2Proof

open Sys2Proof.Machine Sys2Proof.Safety

/-- Settles O39: the state by the extractor's result, and the bits by EXTRACT's closed form. -/
theorem extReadsTheKeyLayout : Obligations.ExtReadsTheKeyLayout := by
  refine fun s => ⟨_, _, _, (exec_ext s).trans (congrArg _ (extractKey_eq s)), fun j hj => ?_⟩
  have hbit (a : Axis) := getLsbD_extractAxis_keyOperand s a hj
  exact ⟨hbit .x, hbit .y, hbit .z⟩

/-- Settles O40: each new pattern is the exact one of its Q register. -/
theorem deqRescalesExactly : Obligations.DeqRescalesExactly :=
  fun s => ⟨_, _, _, exec_deq s, coordValue_dequant _, coordValue_dequant _, coordValue_dequant _,
    fun h => h ▸ dequant_middle, fun h => h ▸ dequant_middle, fun h => h ▸ dequant_middle⟩

/-- Settles O41: DEC is the rescaler on the extractor's result. -/
theorem decIsExtThenDeq : Obligations.DecIsExtThenDeq := fun s => ⟨_, _, exec_ext s, exec_deq _, exec_dec s⟩

/-- Settles O42: the Q registers as for EXT, and the coordinates as for DEQ. -/
theorem decReadsTheKeyAndRescales : Obligations.DecReadsTheKeyAndRescales := by
  refine fun s => ⟨_, exec_dec s, ?_, fun a => ⟨fun j hj => ?_, ?_⟩⟩
  · rw [extractKey_eq]
    rfl
  · rw [qReg_rescaleRegs, qReg_extractKey, getLsbD_extractAxis_keyOperand s a hj]
  · rw [coordReg_rescaleRegs, qReg_rescaleRegs, coordValue_dequant]

/-- Settles O46: each coordinate comes back as the grid point it was quantized to. -/
theorem encodeThenDecodeErrorBound : Obligations.EncodeThenDecodeErrorBound := by
  intro s hs
  have hvalid := (coordsValid_iff s).mpr hs
  obtain ⟨hsat, hnosat⟩ := status_noticeWhen_anySat hvalid (encodeRegs s)
  have hstatus := extractKey_encode_status s
  refine ⟨_, _, exec_enc_of_valid hvalid, exec_dec _, fun h => hstatus.trans (hsat h), fun h => hstatus.trans (hnosat h),
    fun a v hv => ?_⟩
  have hb := (coordsValid_iff_forall s).mp hvalid a
  obtain ⟨-, hhigh⟩ := coordValue_bounds hb hv
  refine ⟨gridValue (quantize (coordReg a s)), ?_, abs_gridValue_quantize_sub_le_step hb hv,
    abs_gridValue_quantize_sub_le hb hv, fun htop => ?_⟩
  · rw [coordReg_rescaleRegs, qReg_extractKey, keyOperand_noticeWhen, extractAxis_keyOperand_encodeRegs, coordValue_dequant]
  · rw [gridValue_quantize_of_clamps hb hv htop]
    exact ⟨rfl, by linarith, by linarith⟩

/-- Settles O47: the decoded coordinates are grid points, so ENC finds the integers that were extracted. -/
theorem decodeThenEncodeRestoresTheKey : Obligations.DecodeThenEncodeRestoresTheKey := by
  refine fun s => ⟨_, exec_dec s, ?_⟩
  have henc := exec_enc_of_quantizesTo (quantizesTo_dequant (extractAxis .x (keyOperand s)))
    (quantizesTo_dequant (extractAxis .y (keyOperand s))) (quantizesTo_dequant (extractAxis .z (keyOperand s))) (extractKey s)
  rw [interleave_extractAxis] at henc
  exact henc

end Sys2Proof

/-! PROOFS. The host's inputs and the housekeeping commands (spec/43_system.md R210 to R217). The idea: the block takes every
input from every state, so a step exists exactly when an input does; what a step leads to is then read off the one transaction
that the block takes. -/

namespace Sys2Proof.Machine

open Sys2Proof.Safety

/-! The step (R217, R60). -/

/-- Every input is taken whole and ends in one of the ways of `InputResult`, with the host's place as it was. -/
theorem exists_accept_result (e : HostInput) (s : State) :
    ∃ t, accept e s = .next t ∧ InputResult s e t ∧ t.issued = s.issued ∧ t.offered = s.offered := by
  obtain ⟨t, ht⟩ := accept_ignoresPlace e s
  have hs : accept e s = .next (atPlace s.issued s.offered t) := ht s.issued s.offered
  exact ⟨_, hs, accept_result hs, rfl, rfl⟩

/-- Once the next input is taken, nothing is offered ahead of the list. -/
theorem offered_eq_none_of_nextInput {program : List HostInput} {r s : State} {e : HostInput}
    (h : nextInput program r = some (e, s)) : s.offered = none := by
  rcases nextInput_cases h with ⟨-, rfl⟩ | ⟨ho, -, rfl⟩
  · rfl
  · exact ho

/-- A step exists exactly when there is a next input. -/
theorem exists_stepWith_eq_next_iff (program : List HostInput) (s : State) :
    (∃ t, stepWith program s = .next t) ↔ nextInput program s ≠ none := by
  cases hn : nextInput program s with
  | none => simp [stepWith_of_none hn]
  | some p =>
    obtain ⟨e, s'⟩ := p
    obtain ⟨t, ht, -⟩ := exists_accept_result e s'
    exact iff_of_true ⟨t, (stepWith_of_next hn).trans ht⟩ (Option.some_ne_none _)

/-! What the host observes: a read appends its word, and no other input does (R217). -/

@[simp] theorem storeReg_observed (r : RegName) (w : Word) (s : State) : (storeReg r w s).observed = s.observed := by
  cases r <;> rfl

theorem InputResult.observed_of_isRead {e : HostInput} {s t : State} (h : InputResult s e t) (he : isRead e = true) :
    ∃ v, t.observed = s.observed ++ [v] := by
  cases h with
  | read _ r => exact ⟨readReg r s, rfl⟩
  | readUnmapped => exact ⟨0#64, rfl⟩
  | reset | store | refusedWrite | illegalWord | command => cases he

theorem InputResult.observed_of_not_isRead {e : HostInput} {s t : State} (h : InputResult s e t) (he : isRead e = false) :
    t.observed = s.observed := by
  cases h with
  | read | readUnmapped => cases he
  | reset => exact hostReset_observed s
  | store => exact storeReg_observed _ _ s
  | refusedWrite | illegalWord => exact raise_observed _ s
  | command _ _ _ _ hres =>
    obtain ⟨-, -, -, hobserved⟩ := hres.frame
    exact hobserved

/-! The step with a host read or a host write (R210 to R214). -/

/-- A step with a transaction is the block performing that transaction. -/
theorem after_of_transact {t : Transaction} {s u : State} (h : transact t s = .next u) : After t s u :=
  fun _ _ hn => (stepWith_of_next hn).trans h

section
variable {idx : RegIdx} (s : State)

theorem after_rd_of_mapped {r : RegName} (h : regAt idx = some r) : After (.rd idx) s (observe (readReg r s) s) :=
  after_of_transact (by simp only [transact, hostRead, h])

theorem after_rd_of_unmapped (h : regAt idx = none) : After (.rd idx) s (raise .ill (observe 0#64 s)) :=
  after_of_transact (by simp only [transact, hostRead, h, takeFault_eq])

theorem after_wr_of_store {r : RegName} (h : regAt idx = some r) (hr : r ∉ [.romd, .status, .cmd]) (w : Word) :
    After (.wr idx w) s (storeReg r w s) :=
  after_of_transact (hostWrite_of_store h hr w s)

theorem after_wr_of_refused (h : regAt idx ∈ [none, some .romd, some .status]) (w : Word) :
    After (.wr idx w) s (raise .ill s) :=
  after_of_transact (hostWrite_of_refused h w s)

end

/-- The low 21 bits of a word are the word modulo 2^21 (R212). -/
theorem extractLsb'_zero_21_eq_ofNat_mod (w : Word) : w.extractLsb' 0 21 = BitVec.ofNat 21 (w.toNat % 2 ^ 21) :=
  BitVec.eq_of_toNat_eq (by simp)

/-! The opcode of NOP (R215). -/

/-- Among the encodings only NOP's has OP = 0. -/
theorem eq_nop_of_opField_encode {i : Instr} (h : opField (encode i) = 0#8) : i = .nop := by
  cases i with
  | nop => rfl
  | enc | dec | qnt | ilv | ext | deq | lutf | luti | clr => simp [encode] at h

end Sys2Proof.Machine

namespace Sys2Proof

open Sys2Proof.Machine Sys2Proof.Safety

/-- Settles O11: the block takes the next input whole, and what the host observes is told by the way the input ended. -/
theorem everyInputIsOneStep : Obligations.EveryInputIsOneStep := by
  intro program r s e hn
  obtain ⟨t, ht, hres, hissued, hoffered⟩ := exists_accept_result e s
  exact ⟨nextInput_cases hn, t, (stepWith_of_next hn).trans ht, hissued,
    hoffered.trans (offered_eq_none_of_nextInput hn), hres.observed_of_isRead, hres.observed_of_not_isRead⟩

/-- Settles O14: there is no next input exactly when nothing is offered and the list is used up. -/
theorem noInputNoStep : Obligations.NoInputNoStep := by
  intro program s
  rw [exists_stepWith_eq_next_iff, Ne, nextInput_eq_none_iff, not_and_or, not_le]

/-- Settles O8: each of the indices 0 to 9 names its register, the others none, and ILL is bit 1 of STATUS. -/
theorem hostReadReturnsTheRegister : Obligations.HostReadReturnsTheRegister := fun s =>
  ⟨after_rd_of_mapped s (r := .x) rfl, after_rd_of_mapped s (r := .y) rfl, after_rd_of_mapped s (r := .z) rfl,
    after_rd_of_mapped s (r := .key) rfl, after_rd_of_mapped s (r := .qx) rfl, after_rd_of_mapped s (r := .qy) rfl,
    after_rd_of_mapped s (r := .qz) rfl, after_rd_of_mapped s (r := .romd) rfl, after_rd_of_mapped s (r := .status) rfl,
    after_rd_of_mapped s (r := .cmd) rfl, fun idx hidx => after_rd_of_unmapped s ((regAt_eq_none_iff idx).mpr hidx)⟩

/-- Settles O9: a data register takes the word, and a Q register its low 21 bits, which are the word modulo 2^21. -/
theorem hostWriteStoresTheWord : Obligations.HostWriteStoresTheWord := by
  intro s w
  rw [← extractLsb'_zero_21_eq_ofNat_mod]
  exact ⟨after_wr_of_store s (r := .x) rfl (by decide) w, after_wr_of_store s (r := .y) rfl (by decide) w,
    after_wr_of_store s (r := .z) rfl (by decide) w, after_wr_of_store s (r := .key) rfl (by decide) w,
    after_wr_of_store s (r := .qx) rfl (by decide) w, after_wr_of_store s (r := .qy) rfl (by decide) w,
    after_wr_of_store s (r := .qz) rfl (by decide) w⟩

/-- Settles O10: ROMD, STATUS and the unmapped indices refuse the write, and ILL is bit 1 of STATUS. -/
theorem illegalWriteRaisesOnlyIll : Obligations.IllegalWriteRaisesOnlyIll := fun s w =>
  ⟨after_wr_of_refused s (by decide) w, after_wr_of_refused s (by decide) w, fun idx hidx =>
    after_wr_of_refused s (by simp [(regAt_eq_none_iff idx).mpr hidx]) w⟩

/-- Settles O31: a word that decodes is the encoding of its command, and only NOP's, the zero word, has OP = 0. -/
theorem nopChangesNothing : Obligations.NopChangesNothing := by
  refine ⟨fun _ => CommandResult.nop.exec_eq, decode_encode (i := .nop) rfl, fun w hop hw i hd => hw ?_⟩
  obtain ⟨-, rfl⟩ := decode_eq_ok_iff.mp hd
  rw [eq_nop_of_opField_encode hop]
  rfl

/-- Settles O32: CLR answers the state with its flags cleared. -/
theorem clrClearsAllFlags : Obligations.ClrClearsAllFlags := fun _ => CommandResult.clr.exec_eq

end Sys2Proof

/-! PROOFS. Exceptions (spec/60_exceptions.md R230 to R242). The idea: by its flags an input ends in one of three ways. It
clears them; it completes with at most one notice; or it faults, and then nothing else of it takes effect. Which flags a
transaction raises, and what a fault leaves alone, follow from these three ways. No operation but clearing reads STATUS or
unsets a flag, so a run's last STATUS tells of the whole run. -/

namespace Sys2Proof.Machine

open Sys2Proof.Safety

/-! STATUS is an operand of no command (R30, R234). -/

/-- The state with another STATUS. -/
def withStatus (st : StatusBits) (s : State) : State := { s with status := st }

/-- The STATUS bits that a notice with the condition c raises (R232). -/
def noticeBits (c : Bool) (f : Flag) : StatusBits := if c then flagMask f else 0#5

/-- A notice raises its bits over any STATUS. -/
theorem noticeWhen_withStatus (c : Bool) (f : Flag) (st : StatusBits) (s : State) :
    noticeWhen c f (withStatus st s) = withStatus (st ||| noticeBits c f) (noticeWhen c f s) := by
  cases c with
  | true => rfl
  | false => exact congrArg (withStatus · s) BitVec.or_zero.symm

/-- A command but CLR ends in the same way over any STATUS, with the same data and the same flags raised. -/
theorem CommandResult.exists_raised {i : Instr} {s t : State} (h : CommandResult s i t) (hi : i ≠ .clr) :
    ∃ raised, ∀ st, CommandResult (withStatus st s) i (withStatus (st ||| raised) t) := by
  have hkey63 (st : StatusBits) := noticeWhen_withStatus (key63 s) .key63 st s
  cases h with
  | nop | ilv | deq => exact ⟨0#5, fun st => by rw [BitVec.or_zero]; constructor⟩
  | lutf a l row hp => exact ⟨0#5, fun st => by rw [BitVec.or_zero]; exact .lutf a l row hp⟩
  | encRange hc => exact ⟨flagMask .range, fun _ => .encRange hc⟩
  | qntRange hc => exact ⟨flagMask .range, fun _ => .qntRange hc⟩
  | lutfIll a l row hp => exact ⟨flagMask .ill, fun _ => .lutfIll a l row hp⟩
  | enc hc => exact ⟨noticeBits (anySat s) .sat, fun st => noticeWhen_withStatus _ _ st _ ▸ .enc hc⟩
  | qnt hc => exact ⟨noticeBits (anySat s) .sat, fun st => noticeWhen_withStatus _ _ st _ ▸ .qnt hc⟩
  | dec =>
    exact ⟨_, fun st =>
      (congrArg (fun u => CommandResult _ _ (writeCoords _ _ _ (extractRegs _ u))) (hkey63 st)).mp .dec⟩
  | ext => exact ⟨_, fun st => (congrArg (fun u => CommandResult _ _ (extractRegs _ u)) (hkey63 st)).mp .ext⟩
  | luti a l c hc =>
    exact ⟨_, fun st => (congrArg (fun u => CommandResult _ _ (writeRomd _ u)) (hkey63 st)).mp (.luti a l c hc)⟩
  | lutiMiss a l hc =>
    exact ⟨noticeBits (key63 s) .key63 ||| flagMask .miss, fun st => BitVec.or_assoc st _ _ ▸
      (congrArg (fun u => CommandResult _ _ (raise _ u)) (hkey63 st)).mp (.lutiMiss a l hc)⟩
  | clr => contradiction

/-- STATUS zero has no flag. -/
theorem hasFlag_zero (f : Flag) : hasFlag f 0#5 = false := BitVec.getLsbD_zero

/-! The three ways an input can end, by its flags (R231, R232, R235, R240). -/

/-- What a faulting input hands the host before it ends: 0 for a read, nothing for a write (R214, R231). -/
def answerZero (e : HostInput) (s : State) : State := if isRead e then observe 0#64 s else s

theorem answerZero_status (e : HostInput) (s : State) : (answerZero e s).status = s.status := by
  unfold answerZero
  split <;> rfl

/-- The block takes the input e in the state s and is then in the state t: the flags are cleared, or at most one notice is
raised, or one fault is, with the notice KEY63 beside MISS only and with nothing else changed. -/
inductive FlagOutcome (s : State) (e : HostInput) : State → Prop where
  | cleared {t : State} (h : t.status = 0#5) : FlagOutcome s e t
  | completed {t : State} (c : Bool) (f : Flag) (hf : flagIsFault f = false) (h : t.status = (noticeWhen c f s).status) :
      FlagOutcome s e t
  | faulted (c : Bool) (f : Flag) (hf : flagIsFault f = true) (hc : c = true → f = .miss) :
      FlagOutcome s e (raise f (noticeWhen c .key63 (answerZero e s)))

/-- An input that raises nothing has completed. -/
theorem flagOutcome_of_status_eq {s t : State} (e : HostInput) (h : t.status = s.status) : FlagOutcome s e t :=
  .completed false .sat rfl h

theorem CommandResult.flagOutcome {i : Instr} {s t : State} (h : CommandResult s i t) (w : Word) :
    FlagOutcome s (.transaction (.wr 9#4 w)) t := by
  cases h with
  | nop | ilv | deq | lutf => exact flagOutcome_of_status_eq _ rfl
  | enc | qnt => exact .completed (anySat s) .sat rfl (by simp [quantizeRegs])
  | dec | ext | luti => exact .completed (key63 s) .key63 rfl rfl
  | encRange | qntRange => exact .faulted false .range rfl nofun
  | lutfIll => exact .faulted false .ill rfl nofun
  | lutiMiss => exact .faulted (key63 s) .miss rfl fun _ => rfl
  | clr => exact .cleared rfl

/-- Every input ends in one of the three ways. -/
theorem InputResult.flagOutcome {e : HostInput} {s t : State} (h : InputResult s e t) : FlagOutcome s e t := by
  cases h with
  | reset => exact .cleared (hostReset_status s)
  | read => exact flagOutcome_of_status_eq _ rfl
  | store => exact flagOutcome_of_status_eq _ (storeReg_status _ _ s)
  | readUnmapped | refusedWrite | illegalWord => exact .faulted false .ill rfl nofun
  | command w _ _ _ hres => exact hres.flagOutcome w

/-- From STATUS zero an input leaves no flag, one flag, or KEY63 with MISS (R235). -/
theorem FlagOutcome.status_mem {e : HostInput} {s t : State} (h : FlagOutcome s e t) (hs : s.status = 0#5) :
    t.status ∈ [0#5, flagMask .range, flagMask .ill, flagMask .miss, flagMask .key63, flagMask .sat,
      flagMask .key63 ||| flagMask .miss] := by
  cases h with
  | cleared h => simp [h]
  | completed c f hf h =>
    rw [h, noticeWhen_status, hs]
    cases f with
    | key63 | sat => cases c <;> decide
    | range | ill | miss => cases hf
  | faulted c f hf hc =>
    rw [raise_status, noticeWhen_status, answerZero_status, hs]
    cases c with
    | true => obtain rfl := hc rfl; decide
    | false => cases f <;> decide

/-- A notice leaves the fault flags as they were. -/
theorem hasFlag_noticeWhen_of_isFault {f g : Flag} (hf : flagIsFault f = true) (hg : flagIsFault g = false) (c : Bool)
    (s : State) : hasFlag f (noticeWhen c g s).status = hasFlag f s.status := by
  have hne : g ≠ f := by rintro rfl; simp [hf] at hg
  cases c with
  | true => simp [hasFlag_setFlag, hne]
  | false => rfl

/-- A fault flag that was clear and is set now is the flag of the one fault that the input ended in. -/
theorem FlagOutcome.eq_of_newFault {e : HostInput} {s t : State} {f : Flag} (h : FlagOutcome s e t)
    (hf : flagIsFault f = true) (hs : hasFlag f s.status = false) (ht : hasFlag f t.status = true) :
    ∃ c, (c = true → f = .miss) ∧ t = raise f (noticeWhen c .key63 (answerZero e s)) := by
  cases h with
  | cleared h =>
    rw [h, hasFlag_zero] at ht
    cases ht
  | completed c g hg h =>
    rw [h, hasFlag_noticeWhen_of_isFault hf hg, hs] at ht
    cases ht
  | faulted c g _ hc =>
    rw [raise_status, hasFlag_setFlag, hasFlag_noticeWhen_of_isFault hf rfl, answerZero_status, hs, Bool.or_false] at ht
    obtain rfl : g = f := of_decide_eq_true ht
    exact ⟨c, hc, rfl⟩

/-- What a fault changes: STATUS, and for a read what the host has received (R240). -/
theorem raise_noticeWhen_answerZero_eq (f : Flag) (c : Bool) (e : HostInput) (s : State) :
    raise f (noticeWhen c .key63 (answerZero e s)) =
      { s with
        status := setFlag f (noticeWhen c .key63 s).status
        observed := if isRead e then s.observed ++ [0#64] else s.observed } := by
  unfold answerZero
  cases isRead e <;> cases c <;> rfl

/-! A clean ENC (R242). -/

/-- An ENC that leaves RANGE and SAT clear met valid coordinates, none of which clamps. -/
theorem coordConditions_of_clean_enc {s t : State} (h : CommandResult s .enc t) (hrange : hasFlag .range t.status = false)
    (hsat : hasFlag .sat t.status = false) : coordsValid s = true ∧ anySat s = false := by
  cases h with
  | enc hc =>
    refine ⟨hc, Bool.eq_false_iff.mpr fun hany => ?_⟩
    simp [hany, hasFlag_setFlag] at hsat
  | encRange => simp [hasFlag_setFlag] at hrange

/-! A clean run (R242). -/

/-- A state whose flags are kept in a state with none has none. -/
theorem cleanStatus_of_keepsFlags {s t : State} (h : KeepsFlags s t) (ht : CleanStatus t) : CleanStatus s := by
  refine status_ext fun f => ?_
  rw [hasFlag_zero]
  refine Bool.eq_false_iff.mpr fun hf => ?_
  have hset := h f hf
  rw [ht, hasFlag_zero] at hset
  cases hset

/-- None of the inputs of the next n steps clears flags: neither the offered one nor the n next ones of the list. -/
def NoClearAhead (program : List HostInput) (n : Nat) (s : State) : Prop :=
  (∀ k e, k < n → program[s.issued + k]? = some e → clearsFlags e = false) ∧
    ∀ e, s.offered = some e → clearsFlags e = false

/-- The next input is one of these, and once it is taken the others are still ahead. -/
theorem NoClearAhead.next {program : List HostInput} {n : Nat} {r s : State} {e : HostInput}
    (h : NoClearAhead program (n + 1) r) (hn : nextInput program r = some (e, s)) :
    clearsFlags e = false ∧ NoClearAhead program n s := by
  obtain ⟨hlist, hoffered⟩ := h
  rcases nextInput_cases hn with ⟨ho, rfl⟩ | ⟨ho, hp, rfl⟩
  · exact ⟨hoffered e ho, fun k e hk => hlist k e (by omega), nofun⟩
  · refine ⟨hlist 0 e n.succ_pos hp, fun k e hk he => hlist (k + 1) e (by omega) ?_, hoffered⟩
    rwa [Nat.add_right_comm] at he

/-- A step with no clearing input ahead keeps every flag, and the others are still ahead after it. -/
theorem NoClearAhead.step {program : List HostInput} {n : Nat} {r t : State} (h : NoClearAhead program (n + 1) r)
    (hstep : stepWith program r = .next t) : KeepsFlags r t ∧ NoClearAhead program n t := by
  obtain ⟨⟨e, s⟩, hn⟩ := Option.ne_none_iff_exists'.mp ((exists_stepWith_eq_next_iff program r).mp ⟨t, hstep⟩)
  obtain ⟨u, hu, hres, hissued, hoffered⟩ := exists_accept_result e s
  obtain rfl : u = t := Host.Outcome.next.inj ((hu.symm.trans (stepWith_of_next hn).symm).trans hstep)
  obtain ⟨hclear, hahead⟩ := h.next hn
  refine ⟨?_, by unfold NoClearAhead; rwa [hissued, hoffered]⟩
  obtain ⟨_, _, rfl⟩ := nextInput_eq_atPlace hn
  exact hres.keepsFlags hclear

end Sys2Proof.Machine

namespace Sys2Proof.Safety

open Sys2Proof.Machine

/-- A run of n + 1 steps that answers a state begins with a step. -/
theorem exists_step_of_run_succ {M : Host.Core} {n : Nat} {s t : M.State} (h : M.run (n + 1) s = .next t) :
    ∃ u, M.step s = .next u ∧ M.run n u = .next t := by
  simp only [Host.Core.run] at h
  cases hs : M.step s with
  | next u => exact ⟨u, rfl, by simpa [hs] using h⟩
  | fault r => simp [hs] at h
  | refused r => simp [hs] at h

/-- A run without clearing inputs that ends with a clean STATUS has one on the way. -/
theorem cleanStatus_of_run {program : List HostInput} {n : Nat} {s t : State} (h : NoClearAhead program n s)
    (hrun : (coreWith program).run n s = .next t) (ht : CleanStatus t) {m : Nat} (hm : m ≤ n) :
    ∃ u : State, (coreWith program).run m s = .next u ∧ CleanStatus u := by
  induction n generalizing s m with
  | zero =>
    obtain rfl := Nat.le_zero.mp hm
    exact ⟨t, hrun, ht⟩
  | succ n ih =>
    obtain ⟨v, hstep, hrest⟩ := exists_step_of_run_succ hrun
    obtain ⟨hkeeps, hahead⟩ := h.step hstep
    cases m with
    | zero =>
      obtain ⟨u, hu, hclean⟩ := ih hahead hrest n.zero_le
      obtain rfl : v = u := Host.Outcome.next.inj hu
      exact ⟨s, rfl, cleanStatus_of_keepsFlags hkeeps hclean⟩
    | succ m =>
      rw [run_succ_of_step (M := coreWith program) hstep]
      exact ih hahead hrest (Nat.le_of_succ_le_succ hm)

end Sys2Proof.Safety

namespace Sys2Proof

open Sys2Proof.Machine Sys2Proof.Safety

/-- Settles O49, by the ways a command can end: none of them depends on STATUS. -/
theorem statusNeverAltersACommand : Obligations.StatusNeverAltersACommand := by
  intro i s hi
  obtain ⟨t, -, hres⟩ := exec_result i s
  obtain ⟨raised, hraised⟩ := hres.exists_raised hi
  exact ⟨t, raised, fun st => (hraised st).exec_eq⟩

/-- Settles O50: each of the three ways an input can end, from STATUS zero. -/
theorem flagsRaisedTogether : Obligations.FlagsRaisedTogether := by
  intro program s t hs hstep
  obtain ⟨e, n, o, hres⟩ := stepWith_result hstep
  exact hres.flagOutcome.status_mem hs

/-- Settles O51: the input ended in that fault, which raises its flag, or MISS with KEY63, and answers 0 to a read. -/
theorem faultsArePrecise : Obligations.FaultsArePrecise := by
  intro program r s t e f hf hclear hn hstep hset
  have hres : InputResult s e t := accept_result ((stepWith_of_next hn).symm.trans hstep)
  obtain ⟨n, o, rfl⟩ := nextInput_eq_atPlace hn
  obtain ⟨c, hc, rfl⟩ := hres.flagOutcome.eq_of_newFault hf hclear hset
  rw [raise_noticeWhen_answerZero_eq]
  refine ⟨rfl, ?_⟩
  cases c with
  | false => exact .inl rfl
  | true =>
    obtain rfl := hc rfl
    exact .inr ⟨rfl, setFlag_comm .miss .key63 r.status⟩

/-- Settles O55: the coordinates are valid and none clamps, so the round trip's bound below the clamp applies to each. -/
theorem cleanEncIsWithinHalfAStep : Obligations.CleanEncIsWithinHalfAStep := by
  intro s t henc hrange hsat
  obtain ⟨hvalid, hany⟩ := coordConditions_of_clean_enc (commandResult_of_exec henc) hrange hsat
  have hclamps : ¬SomeClamps s := fun h => by simp [(anySat_iff hvalid).mpr h] at hany
  obtain ⟨t', u, henc', hdec, -, -, hbound⟩ := encodeThenDecodeErrorBound s ((coordsValid_iff s).mp hvalid)
  obtain rfl : t' = t := Host.Outcome.next.inj (henc'.symm.trans henc)
  refine ⟨u, hdec, fun a => ?_⟩
  have hb := (coordsValid_iff_forall s).mp hvalid a
  obtain ⟨v, hv⟩ := exists_coordValue_of_validCoord hb
  have hlow : v < 1 - 1 / 2 ^ 21 := lt_of_not_ge fun htop => hclamps ⟨a, v, hv, htop⟩
  obtain ⟨v', hv', -, hhalf, -⟩ := hbound a v hv
  exact ⟨v, v', hv, hv', (coordValue_bounds hb hv).1, hlow, hhalf hlow⟩

/-- Settles O56, by induction on the number of steps: no step of the run clears a flag. -/
theorem cleanStatusProvesACleanRun : Obligations.CleanStatusProvesACleanRun :=
  fun _ _ _ _ hlist hoffered hrun ht _ hm => cleanStatus_of_run ⟨hlist, hoffered⟩ hrun ht hm

end Sys2Proof

/-! PROOFS. Reset (spec/70_reset_and_hazards.md R260, R261): the reset state, and the input that leads to it. -/

namespace Sys2Proof.Machine

/-- A register stores zero bits after reset, and CMD stores nothing. -/
@[simp] theorem readReg_reset (r : RegName) : readReg r State.reset = 0#64 := by
  cases r <;> rfl

theorem accept_reset (s : State) : accept .reset s = .next (hostReset s) := rfl

end Sys2Proof.Machine

namespace Sys2Proof

open Sys2Proof.Machine

/-- Settles O15: the stored fields by the definition of the reset state, and what a read answers register by register. -/
theorem resetStateIsAllZero : Obligations.ResetStateIsAllZero :=
  ⟨rfl, rfl, rfl, rfl, rfl, rfl, rfl, rfl, rfl, readReg_reset⟩

/-- Settles O16: the step takes the reset input whole. -/
theorem resetInputRestoresResetState : Obligations.ResetInputRestoresResetState :=
  fun _ _ s hn => (stepWith_of_next hn).trans (accept_reset s)

end Sys2Proof
